-- ==== Sys2Proof/Word.lean ====
section
/-! DEFINITION. The word types of the KT9612 and the two fixed collections (four ports or axes, eight
channels) that every part of the state is built from. -/

namespace Sys2Proof

/-- One byte of the window, of a record or of a frame. -/
abbrev Byte := BitVec 8
/-- A timestamp or a line tick number: 48 bits, modular (R6, R7). -/
abbrev Ts := BitVec 48
/-- A converter code (R6, R612). -/
abbrev Adc := BitVec 12
/-- Sequence numbers, counters and check words. -/
abbrev W32 := BitVec 32
/-- Reason and fault codes (R9). -/
abbrev W16 := BitVec 16

/-- Four like things: head ports, axes, press slices, high-side pairs. -/
structure Quad (α : Type) where
  a : α
  b : α
  c : α
  d : α
deriving DecidableEq, Repr

/-- Eight like things: sensor channels, solenoid channels. -/
structure Oct (α : Type) where
  a : α
  b : α
  c : α
  d : α
  e : α
  f : α
  g : α
  h : α
deriving DecidableEq, Repr

/-- Member i of four; numbers above 3 wrap. -/
def Quad.get {α : Type} (q : Quad α) : Fin 4 → α
  | 0 => q.a | 1 => q.b | 2 => q.c | 3 => q.d

/-- Replace member i of four. -/
def Quad.set {α : Type} (q : Quad α) (i : Fin 4) (v : α) : Quad α :=
  match i with
  | 0 => { q with a := v } | 1 => { q with b := v } | 2 => { q with c := v } | 3 => { q with d := v }

/-- The four members in order. -/
def Quad.toList {α : Type} (q : Quad α) : List α := [q.a, q.b, q.c, q.d]

/-- The same thing four times. -/
def Quad.all {α : Type} (v : α) : Quad α := ⟨v, v, v, v⟩

/-- Apply a function to each member with its number. -/
def Quad.mapIdx {α β : Type} (q : Quad α) (f : Fin 4 → α → β) : Quad β := ⟨f 0 q.a, f 1 q.b, f 2 q.c, f 3 q.d⟩

/-- Member i of eight. -/
def Oct.get {α : Type} (q : Oct α) : Fin 8 → α
  | 0 => q.a | 1 => q.b | 2 => q.c | 3 => q.d | 4 => q.e | 5 => q.f | 6 => q.g | 7 => q.h

/-- Replace member i of eight. -/
def Oct.set {α : Type} (q : Oct α) (i : Fin 8) (v : α) : Oct α :=
  match i with
  | 0 => { q with a := v } | 1 => { q with b := v } | 2 => { q with c := v } | 3 => { q with d := v }
  | 4 => { q with e := v } | 5 => { q with f := v } | 6 => { q with g := v } | 7 => { q with h := v }

/-- The eight members in order. -/
def Oct.toList {α : Type} (q : Oct α) : List α := [q.a, q.b, q.c, q.d, q.e, q.f, q.g, q.h]

/-- The same thing eight times. -/
def Oct.all {α : Type} (v : α) : Oct α := ⟨v, v, v, v, v, v, v, v⟩

/-- Apply a function to each member with its number. -/
def Oct.mapIdx {α β : Type} (q : Oct α) (f : Fin 8 → α → β) : Oct β :=
  ⟨f 0 q.a, f 1 q.b, f 2 q.c, f 3 q.d, f 4 q.e, f 5 q.f, f 6 q.g, f 7 q.h⟩

/-- The port, axis, slice or pair numbers in ascending order. -/
def fin4 : List (Fin 4) := [0, 1, 2, 3]

/-- The channel numbers in ascending order. -/
def fin8 : List (Fin 8) := [0, 1, 2, 3, 4, 5, 6, 7]

end Sys2Proof
end

