-- ==== Sys2Proof/Syntax.lean ====
section
/-! DEFINITION. The commands of the block: one constructor for each row of spec/opcode_table.json. An
operand is what the outside supplies at that moment: a reading, a pin level, a transaction, a frame. -/

namespace Sys2Proof

/-- The conversions of one sample set: HPn_TH, HPn_VH and MS0 to MS7 (01, R318, R376). -/
structure SampleSet where
  th : Quad Adc
  vh : Quad Adc
  ms : Oct Adc
deriving DecidableEq, Repr

/-- Result of the rotating cross-check of one line (R241 to R243): the two results agree, or slices x
and y differ and, when a third slice computed the block again, wrong is the odd one out. -/
inductive CrossCheck where
  | agree
  | differ (x y : Fin 4) (wrong : Fin 4)
deriving DecidableEq, Repr

/-- What a chopper phase belongs to: a winding of an axis (true for winding B) or a coil (R359, R414). -/
inductive Chopped where
  | winding (ax : Fin 4) (b : Bool)
  | coil (ch : Fin 8)
deriving DecidableEq, Repr

/-- A received character with its three tags (R445). -/
structure UChar where
  byte : Byte
  noise : Bool := false
  parity : Bool := false
  framing : Bool := false
deriving DecidableEq, Repr

/-- A frame after its break, or a stream unit: its characters from the sync or lead character on, and the UART clocks of 8 bit
times that its sync character measures (none: measurement failed; not used outside measured mode). -/
structure UFrame where
  chars : List UChar
  measured : Option Nat := none
deriving DecidableEq, Repr

/-- A character on the line as the receiver samples it (R444, R446): samples 7, 8 and 9 of each of its bits, start bit first and
sample 7 in bit 0; and the sample of its last stop bit, 6 or later, after which the next character's falling edge came, none when
it came later than the stop bit. -/
structure UBits where
  bits : List (BitVec 3)
  edge : Option (BitVec 4) := none
deriving DecidableEq, Repr

/-- What comes on the line as a frame after its break, as a stream unit or as part of one; and the UART clocks from the falling edge
that opens the sync character to those that open its data bits 1, 3, 5 and 7 (R459). -/
structure ULine where
  chars : List UBits
  edges : List Nat := []
deriving DecidableEq, Repr

/-- The domains that have a fallback source (R501, R507). -/
inductive Dom where
  | core | motion | adc
deriving DecidableEq, Repr

/-- The sequencers that a watchdog watches (R551), in the order of its table. -/
inductive Sequencer where
  | cellar | admission | statusWriter | governor | gaugeWriter | tasting
deriving DecidableEq, Repr

/-- Wake causes (R529). -/
inductive WakeCause where
  | sleepLow | wakePin | serialFrame | comparator
deriving DecidableEq, Repr

/-- A link frame as received: its bytes from +0x00 to the crc, and whether it closed with K29.7 (R566,
R567, R568). -/
structure LinkFrame where
  bytes : List Byte
  intact : Bool
deriving DecidableEq, Repr

/-- The commands. Each constructor is one row of the opcode table; LAWS.json maps it to its mnemonic. -/
inductive Instr where
  /-- R604 -/
  | powerOnReset
  /-- R517 -/
  | resetN
  /-- R47: the levels read with the pull-up and with the pull-down on -/
  | strapRound (up down : BitVec 16)
  /-- R502 -/
  | pllLock
  /-- R56, R327: eight conversions of each SET pin, four of each axis sense pin -/
  | setPinMeasure (codes sense : List (List Adc))
  /-- R283: the bytes read, or none when the card did not answer or its read did not end -/
  | headCardReadDone (p : Fin 4) (image : Option (List Byte))
  /-- R76 -/
  | cardImageTimeout
  /-- R480 -/
  | vintageSelectionDone
  /-- R247, R556: which slices pass, and their delay margins -/
  | pressSelfTestDone (pass : BitVec 4) (margin : Quad (BitVec 16))
  /-- R517, R633: the levels of COVER and of each HPn_OPEN at that moment -/
  | readyRise (cover : Bool) (opens : Quad Bool)
  /-- R86: command-address, whether all six of its bytes arrived, and words clocked -/
  | xspiRead (ca : BitVec 48) (caDone : Bool) (words : Nat)
  /-- R101: as above, with the data bytes in edge order, each with its mask -/
  | xspiWrite (ca : BitVec 48) (caDone : Bool) (data : List (Byte × Bool))
  /-- R123 -/
  | jobSlotExamine
  /-- R136 -/
  | note
  /-- R131 -/
  | band
  /-- R348 -/
  | feed
  /-- R348 -/
  | backfeed
  /-- R380 -/
  | seekMark
  /-- R402 -/
  | cut
  /-- R415 -/
  | solenoid
  /-- R133 -/
  | adoptProfile
  /-- R392 -/
  | learnMedia
  /-- R289 -/
  | tasteHead
  /-- R137 -/
  | barrier
  /-- R108 -/
  | profileSectionHandover (sec : Fin 28)
  /-- R110 -/
  | sectionRelease (sec : Fin 28)
  /-- R114 -/
  | blockCheck
  /-- R141 -/
  | statusWrite
  /-- R96 -/
  | gaugeFrameWrite
  /-- R19 -/
  | lineTick (fine : Fin 10)
  /-- R14 -/
  | sampleSetComplete (set : SampleSet)
  /-- R238 -/
  | pressLineComplete (cmp : CrossCheck)
  /-- R240 -/
  | sliceParityError (k : Fin 4)
  /-- R257, R265: the HPn_DO samples of the shift that starts here, element 0 first -/
  | planeShiftStart (rb : Quad (List Bool))
  /-- R264, R265: the HPn_DO samples of the shift that starts here, element 0 first -/
  | slotTransfer (rb : Quad (List Bool))
  /-- R264 -/
  | phaseBoundary
  /-- R268 -/
  | strobeGuard (p : Fin 4) (g : Fin 8)
  /-- R270 -/
  | strobeStuck (p : Fin 4) (g : Fin 8)
  /-- R275 -/
  | headOvertempHard (p : Fin 4)
  /-- R276 -/
  | hardLimitRecheck (p : Fin 4) (code : Adc)
  /-- R278 -/
  | vhLowRecheck (p : Fin 4) (code : Adc)
  /-- R279 -/
  | vhHigh (p : Fin 4) (code : Adc)
  /-- R281: the level that HPn_OPEN has taken, and for how many ns -/
  | headOpen (p : Fin 4) (high : Bool) (ns : BitVec 16)
  /-- R281: the level that HPn_OPEN has had for 100 ms -/
  | headOpenClear (p : Fin 4) (high : Bool)
  /-- R289: the sums of 16 conversions of each HPn_VH -/
  | tasteSetupDone (sums : Quad (BitVec 16))
  /-- R289: the sums of 16 conversions with the dot on, and of a new open reading taken before the dot -/
  | tasteDotDone (sums : Quad (BitVec 16)) (reopen : Option (Quad (BitVec 16)))
  /-- R289 -/
  | tasteReleaseDone
  /-- R298 -/
  | startSampleSetDone (set : SampleSet)
  /-- R314 -/
  | bandResume
  /-- R301 -/
  | encoderCount (up : Bool)
  /-- R305 -/
  | tickStalled
  /-- R339 -/
  | motorStep (ax : Fin 4)
  /-- R315 -/
  | mediaRest
  /-- R361 -/
  | axisRelease (ax : Fin 4)
  /-- R359, R414: the phase's length in 10 ns units, an on phase's as the sense comparator ends it -/
  | chopperPhaseEnd (c : Chopped) (len : BitVec 32)
  /-- R364: the sense voltage in 1 mV -/
  | axisOvercurrent (ax : Fin 4) (b : Bool) (mv : BitVec 16)
  /-- R356 -/
  | aencCount (up : Bool)
  /-- R356 -/
  | dcBrakeEnd
  /-- R367 -/
  | dcJamCheck
  /-- R387 -/
  | yankCheck
  /-- R375 -/
  | sensorRound (ms : Oct Adc)
  /-- R382 -/
  | paperOutClear
  /-- R384: the level that COVER has taken, and for how many ns -/
  | coverOpen (high : Bool) (ns : BitVec 16)
  /-- R384: the level that COVER has had for 500 ms -/
  | coverClear (high : Bool)
  /-- R392 -/
  | learnRangeEnd
  /-- R404 -/
  | cutterJam
  /-- R425: the sequence of the SOLENOID or CUT record whose pulse begins -/
  | pulseStart (seq : W32)
  /-- R427 -/
  | solenoidDeadline (seq : W32)
  /-- R409 -/
  | adcbSample (sc : Oct Adc) (vbst : Adc)
  /-- R422 -/
  | onShareWindow (ch : Fin 8)
  /-- R415 -/
  | peakEnd (ch : Fin 8)
  /-- R415 -/
  | holdEnd (ch : Fin 8)
  /-- R416 -/
  | channelOff (ch : Fin 8)
  /-- R430 -/
  | coilModelUpdate
  /-- R437 -/
  | coilOpen (ch : Fin 8)
  /-- R434: the sense voltage in 0.1 mV -/
  | coilShortSupply (ch : Fin 8) (reading : BitVec 16)
  /-- R435: the conversions at the end of each channel's test -/
  | coilIdleTest (readings : Oct Adc)
  /-- R412 -/
  | boostOvervolt (code : Adc)
  /-- R449: UART clocks for which URX has been low -/
  | uartBreak (clocks : BitVec 32)
  /-- R454 -/
  | uartWriteFrame (f : ULine)
  /-- R458 -/
  | uartPoll (f : ULine)
  /-- R461 -/
  | streamWriteUnit (f : ULine)
  /-- R463 -/
  | streamPollUnit (f : ULine)
  /-- R461 -/
  | streamStrayChar (c : UBits)
  /-- R465 -/
  | xon
  /-- R465 -/
  | xoff
  /-- R452: the characters received before the gap, and the UART clocks that it has lasted -/
  | uartTimeout (f : ULine) (clocks : BitVec 32)
  /-- R456 -/
  | uartReply
  /-- R484: units for which CORK has been low, and then high, after its filter -/
  | corkPulse (low high : BitVec 32)
  /-- R488: whether the sector read erased -/
  | cellarEraseDone (ok : Bool)
  /-- R488: whether every word read back at the program margin -/
  | cellarProgramDone (ok : Bool)
  /-- R488 -/
  | storeComplete
  /-- R490 -/
  | storeResume
  /-- R491 -/
  | storeStarved
  /-- R494 -/
  | cellarReadDone
  /-- R509 -/
  | pllUnlock
  /-- R511 -/
  | pllRelockTimeout
  /-- R508 -/
  | rampStep (d : Dom)
  /-- R507 -/
  | clkForced (d : Dom)
  /-- R513 -/
  | clkinLost
  /-- R514 -/
  | clkinRestored
  /-- R552 -/
  | seqWatchdog (q : Sequencer) (step : W32)
  /-- R521 -/
  | firingHoldEnd (p : Fin 4) (set : SampleSet)
  /-- R519 -/
  | portReset (p : Fin 4)
  /-- R536: the status sequence of the fault record whose reaction ends -/
  | reactionEnd (seq : W32)
  /-- R556 -/
  | delayMonitor (margin : Quad (BitVec 16))
  /-- R524 -/
  | sleepRequest
  /-- R526 -/
  | dozeEntry
  /-- R528 -/
  | dormantEntry
  /-- R530 -/
  | wake (cause : WakeCause)
  /-- R566 -/
  | linkAligned
  /-- R570 -/
  | tickFrame (f : LinkFrame)
  /-- R577 -/
  | planFrame (f : LinkFrame)
  /-- R591 -/
  | eventFrame (f : LinkFrame)
  /-- R592 -/
  | echoFrame (f : LinkFrame)
  /-- R590 -/
  | writeFrame (f : LinkFrame)
  /-- R585 -/
  | syncFrame (f : LinkFrame)
  /-- R587 -/
  | cellarFrame (f : LinkFrame)
  /-- R570 -/
  | syncSend
  /-- R569 -/
  | linkFrameResend
  /-- R583: true for lost alignment, false for a frame undelivered at its deadline -/
  | linkDown (lostAlignment : Bool)
  /-- R583 -/
  | linkUp
  /-- R582 -/
  | notJoined
  /-- R584: the position lost -/
  | positionLost (pos : BitVec 2)
  /-- R574: the signed skew in 4 ns units -/
  | tickSkew
  /-- R586 -/
  | noPartner
  /-- R590 -/
  | twinWriteApply
  /-- R595 -/
  | takeover
  /-- R605 -/
  | vhioBankDetector (above : Bool)
  /-- R619: the edge's direction, the levels of TMS, TDI and TRST_N, and the levels at the boundary cells -/
  | testPortTckEdge (rising tms tdi trstN : Bool) (cells : List Bool)
deriving DecidableEq, Repr

end Sys2Proof
end

