-- ==== Sys2Proof/Decode.lean ====
section
/-! DEFINITION. The commands of this block have no encoding: no row of the opcode table gives bits. -/

namespace Sys2Proof

/-- The command that a word spells by the table's bits: none, because no row of the table gives any bits. -/
def decodeTableWord (_nbits _w : Nat) : Option Instr := none

end Sys2Proof
end

