-- ==== Sys2Proof/Config.lean ====
section
/-! DEFINITION. What one part or one implementation fixes, and the free values of the model: constants
without a body, so that no proof can rest on what they are. -/

namespace Sys2Proof.Config

/-- The die number of the identity header, fixed at manufacture (R95). -/
opaque dieId : BitVec 64
/-- The grade field: false KT9612-A, true KT9612-C (R1, R95). -/
opaque gradeC : Bool
/-- FREE VALUE. The byte that an undefined address of the window SRAM holds: first argument the epoch
(one per reset), second the offset in the slice (R104). -/
opaque sramByte : Nat → Nat → Byte
/-- FREE VALUE. Whether the device rounds a temperature upward when the exact figure lies within the
1/64 degree of R271 of a rounding boundary: arguments the ADC code (4,096 stands for the trip of R274), R25 in
10 ohm and B. -/
opaque thermRoundsUp : Nat → Nat → Nat → Bool
/-- FREE VALUE. The temperature, before the bounds of R271, of a reading for which its formula has no value: code 0, whose
logarithm does not exist, and a reciprocal of 0. Arguments as above. -/
opaque thermUnstated : Nat → Nat → Nat → Int
/-- FREE VALUE. A value the manual leaves open, drawn anew at each use: the argument is the counter
State.dev.sys.frees. -/
opaque freeNat : Nat → Nat

end Sys2Proof.Config
end

