-- ==== Sys2Proof/Machine/Bits.lean ====
section
/-! DEFINITION. Byte order, bit fields, check words and the integer arithmetic that several chapters share. -/

namespace Sys2Proof.Machine

/-- Bytes off to off + n - 1 of a structure as one little-endian number (R2); bytes beyond the list count
as 0. -/
def le (bs : List Byte) (off : Nat) : Nat → Nat
  | 0 => 0
  | n + 1 => (bs.getD off 0).toNat + 256 * le bs (off + 1) n

/-- The n little-endian bytes of a number, its upper bits dropped (R2). -/
def leBytes : Nat → Nat → List Byte
  | 0, _ => []
  | n + 1, v => BitVec.ofNat 8 v :: leBytes n (v / 256)

/-- Replace the bytes of a structure from off on; bytes past its end are dropped. -/
def patch (bs : List Byte) (off : Nat) (new : List Byte) : List Byte :=
  bs.take off ++ (new.take (bs.length - off)) ++ bs.drop (off + new.length)

/-- Two's complement value of the low n bits of v (R4). -/
def signed (n v : Nat) : Int :=
  let w := v % 2 ^ n
  if w < 2 ^ (n - 1) then (w : Int) else (w : Int) - (2 ^ n : Nat)

/-- The n-bit two's complement code of an integer, as a number. -/
def unsigned (n : Nat) (v : Int) : Nat := (v % ((2 ^ n : Nat) : Int)).toNat

/-- Bits [hi:lo] of a number (R3). -/
def bits (v hi lo : Nat) : Nat := (v / 2 ^ lo) % 2 ^ (hi + 1 - lo)

/-- Bit i of a number (R3). -/
def bit (v i : Nat) : Bool := v.testBit i

/-- 1 for true. -/
def b2n (b : Bool) : Nat := if b then 1 else 0

/-- One step of CRC-32C on the low bit. -/
def crcBit (c : W32) : W32 := if c.getLsbD 0 then (c >>> 1) ^^^ 0x82F63B78#32 else c >>> 1

/-- CRC-32C taken over one more byte. -/
def crcByte (c : W32) (b : Byte) : W32 :=
  let x := c ^^^ b.zeroExtend 32
  crcBit (crcBit (crcBit (crcBit (crcBit (crcBit (crcBit (crcBit x)))))))

/-- The running remainder of CRC-32C over more bytes, before the final inversion. -/
def crcRun (c : W32) (bs : List Byte) : W32 := bs.foldl crcByte c

/-- CRC-32C of a list of bytes (PRESUMED: the Castagnoli polynomial in its usual reflected form, log entry 7). -/
def crc32c (bs : List Byte) : W32 := ~~~ crcRun 0xFFFFFFFF#32 bs

/-- Quotient rounded up. -/
def ceilDiv (a b : Nat) : Nat := (a + b - 1) / b

/-- Quotient rounded to the nearest whole number, halves upward. -/
def roundDiv (a b : Nat) : Nat := (2 * a + b) / (2 * b)

/-- Number of bits of a number, 0 for 0 (R217, R226). -/
def bitlen (n : Nat) : Nat := if n = 0 then 0 else Nat.log2 n + 1

/-- x bounded to lo to hi (saturation, 00 pseudocode). -/
def clampI (lo hi x : Int) : Int := min (max x lo) hi

/-- Integer square root, deciding the bits from bit k - 1 down (R313). -/
def isqrtFrom (n : Nat) : Nat → Nat → Nat
  | 0, r => r
  | k + 1, r => if (r + 2 ^ k) * (r + 2 ^ k) ≤ n then isqrtFrom n k (r + 2 ^ k) else isqrtFrom n k r

/-- The integer square root of R313, for arguments below 2 to the 128. -/
def isqrt (n : Nat) : Nat := isqrtFrom n 64 0

/-- Units of the timestamp in one microsecond (R6). -/
def us : Nat := 25
/-- Units of the timestamp in one millisecond (R6). -/
def ms : Nat := 25000

/-- Time from one timestamp to another, modulo 2 to the 48 (R7). -/
def since (now t : Ts) : Nat := (now - t).toNat

/-- Whether timestamp a is at or after b, compared modulo 2 to the 48 (R7). -/
def atOrAfter (a b : Ts) : Bool := (a - b).toNat < 2 ^ 47

/-- Whether sequence a is later than b, compared modulo 2 to the 32 as in R97. -/
def laterSeq (a b : W32) : Bool := a != b && (a - b).toNat < 2 ^ 31

/-- n copies of a byte. -/
def zeros (n : Nat) : List Byte := List.replicate n 0

/-- Powers of y for the series of the natural logarithm: y + y^3/3 + y^5/5 and so on, n terms, in units
of 2 to the minus 60. -/
def atanhSum (y2 : Nat) : Nat → Nat → Nat → Nat
  | 0, _, _ => 0
  | n + 1, pow, k => pow / k + atanhSum y2 n (pow * y2 / 2 ^ 60) (k + 2)

/-- Natural logarithm of num/den in units of 2 to the minus 60, for positive arguments (R271). -/
def lnQ (num den : Nat) : Int :=
  let k : Int := (Nat.log2 num : Int) - (Nat.log2 den : Int)
  -- m = num / (den * 2^k), between 1/2 and 2
  let a := if k < 0 then num * 2 ^ (-k).toNat else num
  let b := if k < 0 then den else den * 2 ^ k.toNat
  -- y = |m - 1| / (m + 1), at most 1/3
  let d := if a ≥ b then a - b else b - a
  let y := d * 2 ^ 60 / (a + b)
  let l : Int := 2 * (atanhSum (y * y / 2 ^ 60) 26 y 1 : Nat)
  k * 799144290325165979 + (if a ≥ b then l else -l)

/-- R271: the absolute temperature, in 1/8 degree, of a thermistor of num/den ohm with constants r25 (10 ohm)
and beta. tag is the code that the free value Config.thermRoundsUp is asked about. -/
def thermTemp (tag num den r25 beta : Nat) : Int :=
  -- the logarithm of 0, and the reciprocal of 0 below, are no figure of the rule's (log entry 125)
  if num = 0 then clampI (-2048) 2047 (Config.thermUnstated tag r25 beta) else
  let l := lnQ num (den * (r25 * 10))
  let q : Int := (2 ^ 60 : Nat)
  let n : Int := 5963 * (beta : Int) * q
  let d : Int := 20 * (beta : Int) * q + 5963 * l
  if d = 0 then clampI (-2048) 2047 (Config.thermUnstated tag r25 beta)
  -- a negative absolute temperature lies below the lower bound
  else if d < 0 then -2048 else
  -- (T - 273.15) in 1/8192 degree
  let t := (n * 8192 * 20 - d * 5463 * 8192) / (d * 20)
  let lo := t / 1024
  let frac := t % 1024
  let r :=
    if frac < 384 then lo else if 640 < frac then lo + 1
    else if Config.thermRoundsUp tag r25 beta then lo + 1 else lo
  clampI (-2048) 2047 r

/-- R271: temperature of a thermistor reading c, in 1/8 degree. -/
def codeTemp (c r25 beta : Nat) : Int := thermTemp c (30500 * c) (4096 - c) r25 beta

/-- R274: the hard limit as a temperature: the trip resistance, one eighth of the bias resistor, by R271. -/
def hardLimitTemp (r25 beta : Nat) : Int := thermTemp 4096 30500 8 r25 beta

/-- R277: a head supply reading in 10 mV. -/
def vhOf (c : Nat) : Nat := c * 36000 / 4096 / 10

/-- R409: a VBST reading in 10 mV. -/
def vbstOf (c : Nat) : Nat := c * 7200 / 4096

/-- A solenoid shunt reading in 0.1 mV: the converter's full scale is 1.800 V (R6, R612). DEDUCED, log entry 8. -/
def shuntOf (c : Nat) : Nat := c * 18000 / 4096

/-- Insert a number into an ascending list without repeats. -/
def insertNat (x : Nat) : List Nat → List Nat
  | [] => [x]
  | y :: ys => if x < y then x :: y :: ys else if x = y then y :: ys else y :: insertNat x ys

end Sys2Proof.Machine
end

