-- ==== Sys2Proof/Machine/State.lean ====
section
/-! DEFINITION. Everything the manual gives the device, as plain data, with the reasons a step can stop and
the state right after a power-on reset. A field's comment names the rule that gives it. -/

namespace Sys2Proof.Machine

/-- Why a step stops with a fault. -/
inductive Fault where
  /-- An offset outside the 4 MiB window. SAFE. No command reaches it: the decode of R90 and the bounds of
  R452 keep every access inside the slice, so no meaning raises it. -/
  | absentAddress (offset : Nat)
deriving DecidableEq, Repr

/-- Why a command is refused by the model. -/
inductive Refusal where
  /-- The command's row has no meaning yet. SAFE. Raised by an arm of Dispatch only. -/
  | notModelled (mnemonic : String)
deriving DecidableEq, Repr

/-- Severities, in rising order (R12). -/
inductive Sev where
  | note | derate | pause | stopPort | stopDevice | halt
deriving DecidableEq, Repr

/-- Scope levels (R37, R152). -/
inductive Lvl where
  | none | port | device | stack
deriving DecidableEq, Repr

/-- A happening to be reported: its code; the port, axis, channel or other number its source carries (R539);
the severity, none for a report that has none (R147); the scope; the job record concerned as (sequence, tag);
the record's port_mask; the 20 detail bytes from +0x28 (R152); related_seq where the code itself sets it. -/
structure Rise where
  code : W16
  sub : Nat := 0
  sev : Option Sev := none
  lvl : Lvl := .none
  port : Nat := 0
  job : Option (W32 × W32) := none
  ports : Nat := 0
  detail : List Byte := []
  related : Option W32 := none
  partner : Bool := false          -- R591: told in an EVENT frame
  origin : Option Nat := none      -- R152: stack position of origin, when it is another one
deriving DecidableEq, Repr

/-! ## Clocks, resets and power -/

/-- Where a domain takes its clock from (R501, R505). -/
inductive ClkSrc where
  | pll | fallback | stopped
deriving DecidableEq, Repr

/-- A domain with a fallback source: ratio is the division of 800 MHz in sixteenths (R508), 0 when stopped.
step counts the eight steps of a ramp, 8 when none runs; at its end the source becomes after. -/
structure Domain where
  src : ClkSrc
  ratio : Nat
  fromKhz : Nat := 0
  toKhz : Nat := 0
  step : Nat := 8
  after : ClkSrc := .pll
deriving DecidableEq, Repr

/-- The clocks (14). -/
structure Clk where
  now : Ts := 0               -- R6, R501
  slowPhase : BitVec 6 := 0   -- R501: SLOWCLK is CLKIN divided by 64
  tickNo : Ts := 0            -- R6
  tickTs : Ts := 0            -- R19
  clkinOk : Bool := true      -- R506, R513
  pllOn : Bool := true        -- R45, R517
  locked : Bool := false      -- R504
  unlockTs : Option Ts := none   -- R511
  unlockSeq : W32 := 0        -- R511
  unlockLate : Bool := false  -- R511
  core : Domain := ⟨.fallback, 256, 0, 0, 8, .pll⟩
  motion : Domain := ⟨.fallback, 256, 0, 0, 8, .pll⟩
  adc : Domain := ⟨.stopped, 0, 0, 0, 8, .pll⟩
  headRun : Bool := false     -- R501
  linkRun : Bool := false     -- R501
deriving DecidableEq, Repr

/-- The place in the reset sequence (R45, R78, R513, R517). -/
inductive Phase where
  | straps | locking | settling | cards | vintage | selfTest | almostReady | run | personalityError | noClock
deriving DecidableEq, Repr

/-- The three kinds of reset that SESSION_START names (R160). -/
inductive ResetKind where
  | powerOn | resetN | safety
deriving DecidableEq, Repr

/-- Power states apart from Run and Idle, which R523 computes from the admission queue. -/
inductive Sleep where
  | awake | doze | dormant
deriving DecidableEq, Repr

/-- Resets, power states and the device's own pins (14, R156 to R162, R605). -/
structure Sys where
  phase : Phase := .straps
  resetKind : ResetKind := .powerOn
  haltCode : W16 := 0
  haltBody : List Byte := []       -- R162: body +0x1A to +0x3B of the HALT's record
  haltFlags : Nat := 0             -- R162: flags, port_mask and job_tag of the HALT's record
  haltPorts : Nat := 0
  haltTag : W32 := 0
  oldestOpen : W32 := 0            -- R160
  lastAdmitted : W32 := 0          -- R160
  ready : Bool := false
  faultN : Bool := true            -- level of FAULT_N (R157)
  faultNTs : Ts := 0
  sleep : Sleep := .awake
  sleepPin : Bool := false         -- R524: a sleep request holds
  sleepTs : Ts := 0
  sleepIgnored : Bool := false     -- R531
  wakeCause : Option WakeCause := none -- a wake from Dormant under way, until lock (R530)
  dozeTs : Ts := 0
  vhioOk : Bool := true            -- R605
  hmeas : Bool := false            -- R270, R289
  hmeasStuck : Bool := false       -- R270: held until power-on reset or RESET_N
  hmeasFallTs : Option Ts := none  -- R280
  early : List Rise := []          -- happenings before READY, posted after SESSION_START (R517)
  frees : Nat := 0                 -- argument of the free value Config.freeNat
deriving DecidableEq, Repr

/-! ## Personality -/

/-- A SET pin: mean code, state (0 to 15 bin, 16 SHORT, 17 OPEN) and MARGIN (R58, R59, R80). -/
structure SetPin where
  raw : Adc := 0
  state : BitVec 5 := 0
  margin : Bool := false
deriving DecidableEq, Repr

/-- A port's head card: whether its read has ended, and the bytes read (R283). -/
structure Card where
  read : Bool := false
  image : Option (List Byte) := none
deriving DecidableEq, Repr

/-- A port block (R80). -/
structure PortPers where
  active : Bool := false
  cause : Nat := 0
  geomSrc : Nat := 0
  limitSrc : Nat := 0
  dots : Nat := 0
  resolution : Nat := 0
  lanes : Nat := 0
  strobes : Nat := 0
  maxClk : Nat := 0
  cardStatus : Nat := 0
  ceiling : Nat := 0
  peakDots : Nat := 0
deriving DecidableEq, Repr

/-- The personality (02) and the axis configurations (R327). -/
structure Pers where
  rounds : List (BitVec 16 × BitVec 16) := []
  high : BitVec 16 := 0
  float : BitVec 16 := 0
  undecided : BitVec 16 := 0
  noisy : Bool := false
  pulls : Bool := true             -- R45: the strap pulls are on, from the release of reset to 31 µs
  strapsDone : Bool := false
  sources : Bool := false          -- R45, R60: the 20 µA sources on the SET pins are on
  setsDone : Bool := false         -- R43, R60: the SET pins have been measured
  sets : List SetPin := []
  valid : Bool := false
  error : Bool := false
  cause : Nat := 0
  pin : Nat := 0
  cardsDone : Bool := false
  digestDiffers : Bool := false
  cards : Quad Card := Quad.all {}
  ports : Quad PortPers := Quad.all {}
  digest : W32 := 0
  axisCfg : Quad Nat := Quad.all 0
  senseRaw : List Adc := []
deriving DecidableEq, Repr

/-! ## Window -/

/-- Counters of the identity header (R95) and what the latest read drove. -/
structure HostPort where
  writeCount : W32 := 0
  readCount : W32 := 0
  undecoded : W32 := 0
  violation : W32 := 0
  prewrite : W32 := 0
  resends : W32 := 0
  lastUndecoded : Ts := 0
  dq : Option (List Byte) := none  -- bytes driven by the latest read; none: nothing driven (R86)
deriving DecidableEq, Repr

/-- A pool block whose check has passed (R114, R172). -/
structure Blk where
  seq : W32
  pos : Nat
  len : Nat
deriving DecidableEq, Repr

/-- The window SRAM and the bookkeeping of its structures (03). -/
structure Win where
  mem : List Host.Cell := []
  epoch : Nat := 0
  inForce : BitVec 28 := 0             -- R108
  loaded : Quad (Option Nat) := Quad.all none  -- R371
  mediaUse : List Nat := []            -- R132: media sections, latest use first
  handed : List Nat := []              -- R114
  passed : List Blk := []
  seqNext : Option W32 := none         -- R113
  awaiting : List (W32 × Nat) := []    -- R113: block_seq and the attempt number of its last request
  exhausted : List (W32 × W32) := []   -- R116: block_seq consumed, with the FAULT record's sequence
  lastBandBlock : Option W32 := none   -- R173
  gaugeSeq : W32 := 0                  -- R96
  gaugeTs : Ts := 0
  gaugeSel : Bool := false             -- the frame the next write goes into: false G0
deriving DecidableEq, Repr

/-! ## Records -/

/-- A status record waiting in the status queue: its 64 bytes and whether it sits in the part reserved for
FAULT records (R143). -/
structure QRec where
  bytes : List Byte
  reserved : Bool
deriving DecidableEq, Repr

/-- Outcomes (R11). -/
inductive Result where
  | served | delayed | refused | abandoned
deriving DecidableEq, Repr

/-- A port's segment map in force for a band (R175, R179): segment words, face and raster order. -/
structure SegMap where
  segs : List W32 := []
  back : Bool := false
  reversed : Bool := false
deriving DecidableEq, Repr

/-- An admitted and uncompleted job record: its 64 bytes and what its completion will say so far. lost is
the counted delay, in line ticks or in 40 ns units by R32 (R31, R149); wait is a counted wait under way: its
start, its code, the FAULT record that caused it and the divisor of R149. -/
structure Adm where
  raw : List Byte
  admitTs : Ts
  zero : Bool := false
  trimmed : Bool := false
  trimCode : W16 := 0              -- R33: the reason of a trim made after admission
  begun : Bool := false
  startDue : Option Ts := none     -- R139, R363: begun, its first step comes at this time
  startOwed : Bool := false        -- R139: begun, when its first step or pulse comes is not known yet
  lost : Nat := 0
  wait : Option (Ts × W16 × W32 × Nat) := none
  reason : W16 := 0
  faultRef : W32 := 0
  faultCode : W16 := 0             -- R550: code of the fault that faultRef names
  media : Nat := 0                 -- the media section the record uses (R131, R333)
  dead : Quad (List W32) := Quad.all []    -- R186: a BAND's own merged tables
  maps : Quad SegMap := Quad.all {}        -- R179, R180: the segment maps in force at a BAND's admission
  deferred : Bool := false         -- R354
  loadWait : Bool := false         -- R132, R494: waits for a cellar read
deriving DecidableEq, Repr

/-- The rings (04). -/
structure Rings where
  jobPtr : Nat := 0
  jobNext : Option W32 := none
  posted : List (List Byte × Nat) := []     -- bytes and slot
  admitted : List Adm := []
  flushing : Bool := false
  failedSince : Bool := false
  lastAdm : W32 := 0               -- R160: latest sequence admitted
  statusPtr : Nat := 0
  statusSeq : W32 := 1
  queue : List QRec := []
  waiting : List (List Byte) := []
  lost : Nat := 0
  lostFirst : Ts := 0
  lostLast : Ts := 0
  openFaults : List W32 := []
  faultSlots : List (Nat × W32) := []   -- R142: status slots that hold a FAULT record not yet returned
  fullHeld : Bool := false
deriving DecidableEq, Repr

/-! ## Bands, press and heads -/

/-- A slot plan (R207). -/
structure Plan where
  s : Nat := 0
  carryShift : Nat := 0
  subShift : Nat := 0
  lateral : Nat := 0
  heatGain : Nat := 0
  subGain : Nat := 0
  rDefault : Nat := 0
  xAct : Nat := 1
  tRef : Int := 0
  dur : List Nat := []
  greedy : List Nat := []
  class0 : List Nat := []
  class1 : List Nat := []
  mask : List Nat := []
  decay : List Nat := []
deriving DecidableEq, Repr

/-- The ladder of line speeds of a ramp table (R345), in 1/16 leader microstep/s: up holds A_1, A_2, ...,
down holds D_1, D_2, ... up to the curve's length; lead is L_lead in units of 2 to the minus 32. -/
structure Ladder where
  lead : Nat := 0
  up : List Nat := []
  down : List Nat := []
  vTop : Nat := 0
  quarter : Nat := 0        -- R299: the time the acceleration curve takes for 1/4 line, 10 ns
deriving DecidableEq, Repr

/-- Demand figures of one port and line (R190). -/
structure Demand where
  energy : Nat
  peak : Nat
  block : Nat
  groups : List Nat
  on : Nat
deriving DecidableEq, Repr

/-- Demand figures of one line (R190, R191). -/
structure DemandLine where
  seq : W32
  idx : Nat
  figs : Quad (Option Demand)
deriving DecidableEq, Repr

/-- Where a band stands between its admission and its completion (R298, R313 to R315). -/
inductive BandPhase where
  | waiting      -- not started: window, hold or turn missing
  | starting     -- a start or resume sample set is being taken
  | firing       -- its lines follow the ticks
  | stopping     -- no further line begins; the media comes to rest
  | resting      -- stopped at rest, to resume by R314 or R315
deriving DecidableEq, Repr

/-- The band in progress (R17). -/
structure BandRt where
  raw : List Byte
  media : Nat := 0
  plan : Plan := {}
  tone0 : List Nat := []
  tone1 : List Nat := []
  mediaCopy : List Byte := []           -- R334: the media section at the first line
  maps : Quad SegMap := Quad.all {}
  dead : Quad (List W32) := Quad.all []
  ceilings : Quad Nat := Quad.all 0     -- R206
  ladder : Ladder := {}
  phase : BandPhase := .waiting
  next : Nat := 0                       -- index of the next line to begin
  pos0 : Int := 0                       -- media position of line 0's boundary, 1/64 line
  firstTick : Ts := 0
  firstTs : Ts := 0
  lastTick : Ts := 0
  lastTs : Ts := 0
  damaged : Nat := 0
  firstDamaged : Option Nat := none
  damageRef : W32 := 0
  damageCode : W16 := 0
  base : W32 × Nat := (0, 0)            -- R117: first block not handed back, with the stream offset of its first byte
  pauses : Nat := 0
  pauseStart : Ts := 0
  pauseCause : W16 := 0
  pauseRef : W32 := 0
  pauseOwed : Bool := false             -- BAND_PAUSE to be posted at the resume
  satPosted : BitVec 4 := 0             -- R233
  trimPosted : BitVec 4 := 0            -- R262
  chains : List W32 := []               -- R312: the BANDs decided to follow, in order
  endDecided : Bool := false            -- R312
  restAfter : Option Int := none        -- line index before which the media comes to rest, negative within the lead_in
  restFrom : Nat × Nat := (0, 0)        -- R313: v and n of a stop plan, (0, 0) for none
  abandonAt : Option (W16 × W32 × Lvl) := none  -- abandoned once the line under way has ended
  overlapEnd : Option (Nat × W16 × W32) := none  -- R116, R174: the lines before the data's early end, its code and FAULT record
  devs : List Int := []                 -- R320
  devTick : Ts := 0
  waitPeriod : Nat := 0                 -- R149: the committed period when the wait began
  fromRest : Bool := false              -- R298: its next line starts from rest at the planned time
  lacks : Option Nat := none            -- R577: first line missing from a member's window
deriving DecidableEq, Repr

/-- Press results of one port for one line (R200). -/
structure PortOut where
  slots : List Nat
  words : List (BitVec 32)
  subs : List Nat
  energy : Nat := 0               -- sum of E_a, 0.1 µJ (R554)
deriving DecidableEq, Repr

/-- A strobe group that a line's plane was trimmed in (R262): port, group, slot, its current before in mA and the highest dot
cleared. -/
structure Trim where
  p : Fin 4
  g : Nat
  s : Nat
  i : Nat
  top : Nat
deriving DecidableEq, Repr

/-- The pending buffer (R200). -/
structure PendLine where
  seq : W32
  idx : Nat
  outs : Quad (Option PortOut)
  planned : Ts                    -- the planned tick time (R216)
  complete : Bool
  trimmed : Bool
  share : List Nat                -- dots of the line that each slice holds (R245)
  vh : Quad Nat := Quad.all 0     -- the VH inputs in force that the line is computed from, 10 mV (R261, R318)
  planes : Quad (List Nat) := Quad.all []  -- the slot words within the budget, from the shift of plane 0 on (R262)
  trims : List Trim := []
deriving DecidableEq, Repr

/-- The line being fired (R200, R264). slot is the next slot to transfer; phases lists the groups of each
phase of the slot under way, as (port, group); phase is the phase under way. -/
structure FireLine where
  seq : W32
  idx : Nat
  tick : Ts
  slots : Quad (List Nat)
  durs : List Nat
  slot : Nat := 0
  phases : List (List (Nat × Nat)) := []
  phase : Nat := 0
  ended : Bool := false           -- the last slot has ended
  endTs : Ts := 0                 -- when it ended (R258)
  damaged : Bool := false
  killed : BitVec 4 := 0          -- ports whose remaining strobes are suppressed
  vh : Quad Nat := Quad.all 0     -- R261
  trims : List Trim := []         -- R262
deriving DecidableEq, Repr

/-- A press slice (R238, R247, R556). -/
structure Slice where
  fenced : Bool := false
  withdrawn : Bool := false
  margin : Nat := 0
  leaving : Bool := false              -- R556: withdrawn at the next line boundary
deriving DecidableEq, Repr

/-- Line work of the whole device. -/
structure Line where
  band : Option BandRt := none
  following : Option BandRt := none    -- R312: the band whose first line follows the last line of band at the next tick
  demand : List DemandLine := []
  pend : Option PendLine := none
  startTs : Option Ts := none          -- R298: start of the start or resume sample set under way
  fire : Option FireLine := none
  period : Nat := 0
  nextPeriod : Nat := 0                -- committed for the line that the next tick begins
  nextRest : Bool := false             -- that line ends at rest
  planned : Ts := 0
  derate : Nat := 0                    -- R308
  derateOn : Bool := false             -- the condition held at the last commit
  derateCount : Nat := 0               -- commits since the last change of derate
  slices : Quad Slice := Quad.all {}
  checkBlock : Nat := 0                -- R241: the block, of the band's blocks in order, that the next line's check computes twice
  sampled : Bool := false              -- a tick sample set is due (R19)
  shiftDone : Bool := false            -- plane 0 of the next line has been shifted (R257)
  lastMs : Oct Adc := Oct.all 0        -- R98
deriving DecidableEq, Repr

/-- An input in force with the run of sample sets that differ from it (R318). -/
structure InForce where
  value : Option Int := none
  run : Nat := 0
  up : Bool := false
deriving DecidableEq, Repr

/-- A head port (06, 07). -/
structure Head where
  dots : List (Nat × BitVec 32) := []   -- R196: words that are not 0, by physical dot
  subs : List Nat := []                 -- R198; missing entries are 0
  tLast : Option Ts := none             -- R199
  grown : List Nat := []                -- R183
  deadPrev : Option (List W32 × Nat) := none -- R186
  thIn : InForce := {}
  vhIn : InForce := {}
  rawTh : Adc := 0
  rawVh : Adc := 0
  holdTs : Option Ts := some 0          -- R521: the hold's start, none when over
  kills : List W16 := []                -- R269: codes of the kill inputs held
  soft : Bool := false                  -- R273
  hardTrip : Bool := false              -- R275
  vhLow : Option Nat := none            -- R278: good samples in a row
  vhHighOn : Bool := false              -- R279
  openPin : Bool := false               -- R281, after its filter
  thFault : Bool := false               -- R272
  stopped : Bool := false               -- a STOP_PORT reaction holds the port
  shiftReg : Option (List Nat) := none  -- R265: the words whose plane the register holds, none unknown
  regPlane : Nat := 0
  lanes : BitVec 16 := 0                -- R249: the levels of HPn_D0 to HPn_D15, as the latest shift left them
  latch : Option (List Nat) := none
  latchPlane : Nat := 0
  energy : Nat := 0                     -- energy_fired below 1 J, 0.1 µJ (R554)
  strobes : BitVec 8 := 0               -- strobes asserted, after the guard
deriving DecidableEq, Repr

/-- A tasting run (R289). -/
structure Taste where
  seq : W32
  dot : Nat
  stage : Nat := 0                     -- 0 set-up dwell, 1 dots, 2 release, 3 yielded
  open16 : Quad Nat := Quad.all 0
  found : Quad (List (Nat × Nat × Nat)) := Quad.all []  -- dot, resistance, cause (0 alive; 8 added when newly dead)
  yielding : Bool := false
  ended : Bool := false                -- R150: complete; its release is under way
  stageTs : Ts := 0
deriving DecidableEq, Repr

/-! ## Motion -/

/-- A Hermite segment under way or planned (R338, R343), or the part of one that AX3 follows (R355): dpos steps, forward or
not; the cubic spans travel in 1/65,536 microstep over t in 10 ns; the part starts at lo of it, lasts len, and starts frac
past a whole microstep. -/
structure Seg where
  dpos : Nat
  t : Nat
  v0 : Nat
  vEnd : Nat
  fwd : Bool
  tick : Bool := false      -- its last step completes travel to a boundary that raises a tick
  told : Option Nat := none -- R579: its start in 10 ns, once a stack master has announced it
  travel : Nat := dpos * 65536
  lo : Nat := 0
  len : Nat := t
  frac : Nat := 0
deriving DecidableEq, Repr

/-- What the two half-bridges of a winding do (R323, R359): every gate off; both low sides on; the winding driven, from its
first half-bridge to its second or the other way; an off phase after a drive: reversed for fast, in 10 ns, then both low
sides on. -/
inductive Bridge where
  | off | slow
  | drive (fwd : Bool)
  | decay (fwd : Bool) (fast : Nat)
deriving DecidableEq, Repr

/-- A winding's chopper (R358, R359, R365, R557) and what its half-bridges do. -/
structure Winding where
  on : Bool := false
  dir : Bool := true        -- R358: the direction of its latest on phase
  phaseTs : Ts := 0         -- when the phase under way began
  stepOn : Nat := 0         -- R366: its on time since the axis's last full step, 10 ns
  bridge : Bridge := .off
  was : Bridge := .off      -- R325: what they did until turnTs
  turnTs : Ts := 0
  fast : Nat := 0
  off : Nat := 0            -- length of the off phase under way, 10 ns
  limits : Nat := 0
  accOn : Nat := 0
  accAll : Nat := 0
deriving DecidableEq, Repr

/-- An axis (09). -/
structure Axis where
  pos : Int := 0
  phase : BitVec 8 := 32
  ustep : Nat := 0
  energised : Bool := false
  released : Bool := false
  level : Nat := 0
  moving : Bool := false
  fwd : Bool := true
  segs : List Seg := []     -- the segment under way and those that follow it
  done : Nat := 0           -- steps issued of the segment under way
  lastU : Nat := 0          -- time of the last step in the segment, 10 ns
  segTs : BitVec 50 := 0    -- R339: when the segment under way starts, 10 ns
  a : Winding := {}
  b : Winding := {}
  lfsr : BitVec 16 := 1
  low : Nat := 0            -- R366: consecutive full steps below the limit
  sinceFull : Nat := 0      -- R366: microsteps since the last full step
  fullSteps : Nat := 0      -- R366: full steps since a start
  fullTs : Ts := 0          -- R366: when the last full step was, or the start
  held : Bool := false      -- gates held off (R364, R507, R513)
  entry : List Byte := []   -- R334: the copy of its axis entry
  restTs : Ts := 0
  moveTs : Ts := 0          -- when it last began to move
  readyTs : Option Ts := none   -- R363: when the first step after an energising may come
  moveAcc : Nat := 0        -- R554: time moved below one second
deriving DecidableEq, Repr

/-- What the media group is doing (R313 to R315, R348 to R351). -/
inductive Travel where
  | rest
  | planned      -- line by line under a band or a record
  | stopping     -- decelerating for a reaction, no return yet
  | returning    -- going back to the stopped boundary, or approaching a superseding target
deriving DecidableEq, Repr

/-- The interpolation group and the encoders. -/
structure Mot where
  travel : Travel := .rest
  fwd : Bool := true
  baseM : Int := 0          -- R342, 1/64 line
  baseX : Int := 0          -- R342, microsteps
  l0 : Nat := 65536         -- microsteps per line, LSB 1/65,536
  ladder : Ladder := {}
  bound : Int := 0          -- media position at the end of the last planned line, 1/64 line
  target : Option Int := none       -- rest target, 1/64 line
  superseded : Option Int := none   -- R351
  overshoot : Nat := 0
  returnTo : Option Int := none     -- R315
  per : Nat := 0            -- period of the last planned line, 0 at rest
  vEnd : Nat := 0           -- its v_end
  maxRate : Nat := 1
  stopFrom : Nat × Nat := (0, 0)  -- R348: speed and distance, 1/64 line, at which the deceleration to the target began; (0, 0) before it
  endTs : Ts := 0           -- planned time of the end of the last planned line
  dues : List Ts := []      -- R295, R305: planned times of the boundaries ahead at which a moving record raises ticks
  stopAbandon : Option (W16 × W32 × Lvl) := none  -- the moving record is abandoned at rest, without return
  menc : Int := 0
  mark : Int := 0           -- R301
  lineBase : Int := 0       -- count at the base of R342
  nextB : Option Int := none -- media position of the boundary that the watermark awaits, 1/64 line
  cpl : Nat := 0            -- R370: counts per line in force, LSB 1/65,536
  excursion : Bool := false -- R304
  tickDue : Option Ts := none       -- R295: a tick raised, with its timestamp
  aenc : Int := 0
  auxFrom : Int := 0
  auxTarget : Option Int := none    -- R356
  auxBrake : Bool := false
  auxHomed : Bool := false
  jamOn : Bool := false     -- R367: AX0's travel and the encoder differ beyond the limit
  auxTs : Ts := 0           -- R367: when AX3's drive began, or its latest AXIS_JAM
  auxCounts : List Ts := [] -- R367: the AENC counts of the past 50 ms, latest first
  curMedia : Nat := 0       -- R333
  table : Nat := 0          -- R110: ramp table of the record that moved the media or AX3 last
  encHist : List Int := []  -- R387: MENC counts at the last checks, latest first
  cmdHist : List Int := []  -- R387: AX0 positions at the last checks
  yankTs : Ts := 0          -- R387: when the last check was
deriving DecidableEq, Repr

/-! ## Sensing, moves and cutting -/

/-- A sensor channel (R374 to R383, R398). -/
structure Chan where
  space : Option Bool := none      -- R377: none until the first classified sample
  run : Nat := 0
  lastPos : Int := 0
  lastR : Nat := 0
  cross : Int := 0                 -- R378: crossing before the run under way
  leadEdge : Option Int := none    -- R379
  settleTs : Option Ts := none     -- R374
  mediaTs : Option Ts := none      -- since when it has read MEDIA
  nearArmed : Bool := true         -- R383
  accSum : Nat := 0                -- R398
  accN : Nat := 0
  fresh : Bool := true             -- R633: no state since the reset
  entry : List Byte := []          -- R374, R377: the channel entry that is in use
deriving DecidableEq, Repr

/-- Statistics of one channel in a learning run (R392 to R395). -/
structure Learn where
  lo : Nat := 4095
  hi : Nat := 0
  eOld : Nat := 0
  eNew : Nat := 0
  cut : Nat := 0                   -- the threshold c
  hiN : Nat := 0
  hiSum : Nat := 0
  loN : Nat := 0
  loSum : Nat := 0
  space : Option Bool := none
  run : Nat := 0
  lastPos : Int := 0
  lastR : Nat := 0
  cross : Int := 0
  lead : Option Int := none
  prevLead : Option Int := none
  leads : Nat := 0
  leadSum : Int := 0
  runs : Nat := 0
  runSum : Int := 0
deriving DecidableEq, Repr

/-- The record other than a band that moves the media (R150, R348, R402). -/
structure Move where
  seq : W32
  startPos : Int
  goal : Int                       -- 1/64 line
  fwd : Bool
  found : Option Int := none       -- R380
  code : W16 := 0                  -- MARK_NOT_FOUND, LEARN_WEAK
  paused : Bool := false           -- stopped by a reaction, to resume (R405)
  ranged : Bool := false           -- LEARN_MEDIA: the range pass has ended
deriving DecidableEq, Repr

/-- Steps of a CUT (R402). -/
inductive CutStep where
  | homing | advance | stroke | back | backfeed
deriving DecidableEq, Repr

/-- The CUT in progress. -/
structure CutRt where
  seq : W32
  step : CutStep
  startPos : Int
  strokeTs : Ts := 0
  strokeTime : Nat := 0
  code : W16 := 0
  waiting : Bool := false          -- R405: the step waits for a PAUSE to end
  goal : Option Int := none        -- where the advance or the backfeed ends, 1/64 line
deriving DecidableEq, Repr

/-- Media sensing beyond the channels. -/
structure Media where
  cover : Bool := false            -- COVER's condition: active, or not yet inactive for 500 ms (R384)
  coverPin : Bool := false         -- level of COVER after its filter (R384)
  paperOut : Bool := false         -- PAPER_OUT's condition holds
  move : Option Move := none
  cut : Option CutRt := none
  learn : Oct Learn := Oct.all {}
deriving DecidableEq, Repr

/-! ## Solenoids -/

/-- Phase of a channel's pulse (R415, R416). -/
inductive Pulse where
  | idle | peak | hold | released
deriving DecidableEq, Repr

/-- A solenoid channel (11). -/
structure Sol where
  phase : Pulse := .idle
  owner : Option W32 := none       -- R425: the record the channel belongs to
  gate : Bool := false
  phaseTs : Ts := 0
  regulating : Bool := false       -- the sense voltage has reached the peak code
  m : Nat := 0                     -- R421
  armed : Bool := false
  lo : Nat := 0
  loTs : Ts := 0
  seated : Option Ts := none
  seatSeen : Ts := 0
  sMax : Nat := 0                  -- R422
  windows : Nat := 0
  lowTs : Option Ts := none
  strong : Bool := false           -- a sample reached peak_level / 8 (R437)
  relTs : Ts := 0
  belowTs : Option Ts := none      -- R416
  gateTs : Ts := 0                 -- since when the gate has had its level
  gnd : Bool := false              -- R436: the sample before was at the limit
  th : Int := 640 * 65536          -- R430, R431
  acc : Nat := 0
  accN : Nat := 0
  lfsr : BitVec 16 := 9
  off : Nat := 0                   -- R414: length of the off phase, 10 ns
  regTs : Ts := 0                  -- R422: since when it has regulated
  winOn : Nat := 0                 -- R422: on time in the present window, 10 ns
  testTo : Option Ts := none       -- R435: the channel is under test until then
  accOn : Nat := 0                 -- R557
  accAll : Nat := 0
  hotPosted : Bool := false        -- COIL_HOT's condition holds (R432)
deriving DecidableEq, Repr

/-- A SOLENOID record, or the pulse of a CUT, from admission to completion. -/
structure SolRun where
  seq : W32
  ch : Fin 8
  paired : Bool
  count : Nat
  peak : Nat
  peakMax : Nat
  hold : Nat
  holdTime : Nat
  period : Nat
  deadline : Option Ts
  admitTs : Ts
  begun : Bool := false
  start0 : Ts := 0
  index : Nat := 0                 -- pulse under way or next to begin
  done : Nat := 0
  seatedN : Nat := 0
  firstSeat : Nat := 0
  waitCode : W16 := 0              -- R426
  waitRef : W32 := 0
  stop : Option (W16 × W32 × Lvl) := none  -- abandoned after the present pulse (R439)
  void : Bool := false             -- the present pulse was cut short and does not count
deriving DecidableEq, Repr

/-- The solenoid stage. -/
structure SolX where
  runs : List SolRun := []
  hs : Quad Bool := Quad.all false
  hsTs : Quad Ts := Quad.all 0
  fenced : Quad Bool := Quad.all false   -- R438
  boost : Bool := false
  dump : Bool := false
  overvolt : Bool := false
  vbst : Nat := 0
  adcb : List Adc := []            -- codes of the latest ADC-B round (R570)
deriving DecidableEq, Repr

/-! ## Serial port -/

/-- The serial port (12). -/
structure Uart where
  opened : Bool := false           -- a break or a lead character has opened a frame or unit
  rate : Nat := 0                  -- R460: rate in force, bit/s; 0 before the personality is final
  framesBad : Nat := 0
  noisy : Nat := 0
  held : Bool := false             -- R465: the host's XOFF holds the transmitter
  rxUnits : List UFrame := []      -- R464: units held in the receive buffer
  xoffSent : Bool := false         -- R464
  replies : List (List Byte × Bool) := []     -- the answers waiting, and whether each is a poll's
  sent : List Byte := []           -- characters sent on UTX by the latest UART_REPLY or flow control
  ude : Bool := false
  deferred : Option UFrame := none -- R467: the frame that woke the device
deriving DecidableEq, Repr

/-! ## Cellar -/

/-- A copy of the bad-sector table (R471): entries are 16-bit words. -/
structure BadTab where
  seq : W32 := 0
  entries : List (BitVec 16) := []
  verifies : Bool := true
deriving DecidableEq, Repr

/-- A store in progress (R485, R488). records holds the 65 records; step is 1 to 4; sector counts the
sectors done in the step. -/
structure Store where
  records : List (List Byte)
  vintage : W32
  bankB : Bool
  ts : Ts
  step : Nat := 1
  sector : Nat := 0
  suspended : Option Ts := none
  starved : Bool := false
deriving DecidableEq, Repr

/-- The cellar (13). -/
structure Cellar where
  cells : List Host.Cell := []     -- programmed bytes, by physical sector * 512 + byte
  soft : List Nat := []            -- words that need correction, by byte address / 4
  bad : List Nat := []             -- words that are uncorrectable
  tab0 : BadTab := { seq := 1 }
  tab1 : BadTab := {}
  tableOk : Bool := true           -- R475
  vintage : W32 := 0               -- R95, R480
  bankB : Bool := false
  inUse : Bool := false            -- a vintage, not the factory defaults
  defaults : Bool := false         -- R482
  pendingSet : List (Nat × List Byte) := []   -- R485: record index and content
  store : Option Store := none
  pulseHeld : Bool := false
  worn : Bool := false
  corrected : List Nat := []       -- R494: records reported since reset
  reads : List (W32 × Nat) := []   -- records that wait for a cellar read: job sequence and record index
deriving DecidableEq, Repr

/-! ## Faults and ageing -/

/-- A reaction in force or deferred (R536 to R549), named by the status sequence of its record. -/
structure React where
  seq : W32
  code : W16
  sub : Nat
  sev : Sev
  lvl : Lvl
  port : Nat
  started : Bool
  waits : Bool := false            -- R19, R22: starts with step 2 of the next tick
  condHeld : Bool
  condTs : Ts
  escalated : Bool
  lastTs : Ts
deriving DecidableEq, Repr

/-- The actions that carry a shadow set, in the order of the table of R543. -/
inductive Disturb where
  | strobes | media | gates | domain | release
deriving DecidableEq, Repr

/-- A shadow in force (R543): its action, the detector's code, the port, axis or channel it is limited to
(none: all), and its end (none: not yet known). -/
structure Shadow where
  why : Disturb
  code : W16
  sub : Option Nat
  until_ : Option Ts
deriving DecidableEq, Repr

/-- Faults (15). -/
structure Flt where
  hist : List (Nat × List Ts) := []    -- R540: source and the times of its counted events, latest first
  active : List React := []
  shadows : List Shadow := []
deriving DecidableEq, Repr

/-- Ageing (R554 to R559). -/
structure Age where
  ledger : List Host.Cell := []        -- bytes that are not 0
  once : List (W16 × Nat) := []        -- events posted since the reset
  powered : Nat := 0                   -- timestamp units within the second
  run : Nat := 0
deriving DecidableEq, Repr

/-! ## Twin, stack and link -/

/-- What a SYNC frame said of a node (R571). -/
structure SyncInfo where
  state : Nat
  flags : Nat
  digest : W32
  vintage : W32
  content : W32
  ts : Ts
  tick : Ts
deriving DecidableEq, Repr

/-- The latest TICK frame of kind 0 held (R570, R573). -/
structure TickInfo where
  ts : Ts
  tick : Ts
  period : Nat
  stop : Bool
  rest : Bool
  noLine : Bool
deriving DecidableEq, Repr

/-- A member's PLAN frame (R571, R577). -/
structure PlanInfo where
  tick : Ts
  pReq : Nat
  missing : Bool
  rest : Bool
deriving DecidableEq, Repr

/-- A write waiting in a twin secondary's queue (R590): the count after which it applies, whether it came
by the link, its time and its bytes with their window offsets. -/
structure QWrite where
  count : W32
  fromLink : Bool
  ts : Ts
  cells : List (Nat × Byte)
deriving DecidableEq, Repr

/-- A frame of the chip's own that has not come back (R569): as it went out last, how often it was sent again, when it last
went out. -/
structure Flight where
  bytes : List Byte
  tries : Nat := 0
  ts : Ts
deriving DecidableEq, Repr

/-- The link (16). -/
structure Link where
  aligned : Bool := false
  alignTs : Ts := 0
  downHeld : Bool := false             -- LINK_DOWN's condition holds
  formed : Bool := false
  driving : Bool := false              -- R91, R95: set once the straps are decided, never in a half that does not drive
  ownLow : Bool := false               -- this chip pulls TWIN_OWN low
  dissolved : Bool := false            -- R594, R598
  joined : Bool := true                -- R582
  released : Option W16 := none        -- R595: the release announced by the primary
  imagesSent : Bool := false
  images : Quad (List Byte × Bool × Bool) := Quad.all ([], false, false) -- bytes, complete, absent
  partner : Option SyncInfo := none
  nodes : List (Nat × SyncInfo) := []  -- latest SYNC of each node
  tick : Option TickInfo := none
  partnerSlices : Option Nat := none   -- R238: P of the other half, as its frames give it
  plans : Quad (Option PlanInfo) := Quad.all none
  ticked : Bool := false               -- a tick has been raised since the reset: its period needs the members' plans (R573)
  planOut : Bool := false              -- R577: this member's plan for the period under way has been sent
  planOwed : Bool := false             -- R39: it is withheld by a reaction
  seen : List (Byte × Byte) := []      -- R568: (src, seq) accepted
  seq : Byte := 0
  flights : List Flight := []          -- R569: own frames not yet delivered, oldest first
  resends : Nat := 0                   -- R569: re-sends since the last LINK_RESEND
  resendTs : Option Ts := none
  sent : List (List Byte) := []        -- own frames put on the link at sentTs, in the order of R570
  sentTs : Ts := 0
  forwarded : List (List Byte × Bool) := []  -- frames forwarded at fwdTs, each closed with K29.7 (true) or K30.7
  fwdTs : Ts := 0
  queue : List QWrite := []            -- R590
  parts : List (W32 × Nat × List (Nat × Byte)) := []   -- parts of a forwarded write
  records : List (Nat × List Byte × Bool) := []   -- R585, R587: record content received, and whether it is whole
  recordsSent : Bool := false          -- R585 step 6
  alone : Bool := false                -- R81, R586: the pair does not form
  mark : Option (Ts × Ts) := none      -- R585: timestamp and tick number to be loaded at the marked pulse
  markAt : Option Ts := none           -- R585: when the pulse that this chip has marked is due
  marked : Bool := false
  takeover : Option (List Byte) := none   -- R597: TAKEOVER's detail, until the takeover line boundary
  takeWait : Bool := false             -- R596: plane 0 of the next line was shifted before the takeover
  takeTs : Ts := 0                     -- R596: when the conditions of R595 held
  takeHeads : Bool := false            -- R596: plane 0 of the takeover line has begun to shift
  partnerLeaving : Nat := 0            -- R238, R591: slices of the other half that leave at the next line boundary
  origin : Nat := 0                    -- R42: where the latest stack-level reaction began
  linePos : List Int := []                 -- R592: axis positions at the latest tick
  echoed : List (Ts × W32 × W32) := []     -- R592: line_crc and status_crc of the ECHO frames not yet compared
  changes : List (W32 × Nat × Nat) := []   -- R570 kind 3: window changes not yet sent: write_count, item, action
  checks : List (Nat × Bool) := []         -- R118: this half's own block results, by pool block, until compared
  statusCrc : W32 := 0xFFFFFFFF        -- R570: running over the status records since formation
  lineCrcs : List (Ts × W32 × W32) := []   -- R592: this half's line_crc and status_crc of its latest lines
  lastFrameTs : Ts := 0
  lostPos : BitVec 4 := 0              -- R584: positions whose POSITION_LOST holds
  tickOut : Option Ts := none          -- R572: when the latest pulse on LNK_TICK_OUT was driven
  edge : Fin 10 := 0                   -- R570: place of the latest edge at LNK_TICK_IN within its 40 ns unit, in 4 ns
  skew : Int := 0                      -- R574: this chip's edge against the master's at the latest tick compared, in 4 ns
  skewRun : Nat := 0                   -- R574: consecutive ticks whose edges differ by more than 20 ns
  stray : Option Int := none           -- R574: a pulse more than 1.0 µs from its planned time, and how far, in 4 ns
  tickHeard : Ts := 0                  -- R584: when the latest TICK frame of position 0 came
  masterPos : Option Int := none       -- R579
deriving DecidableEq, Repr

/-! ## Test port -/

/-- The sixteen states of the IEEE 1149.1 controller (R619). -/
inductive TapState where
  | reset | idle | selectDr | captureDr | shiftDr | exit1Dr | pauseDr | exit2Dr | updateDr
  | selectIr | captureIr | shiftIr | exit1Ir | pauseIr | exit2Ir | updateIr
deriving DecidableEq, Repr

/-- The test logic (R619). -/
structure Tap where
  state : TapState := .reset
  ir : BitVec 4 := 0b1111
  irShift : BitVec 4 := 0
  bypass : Bool := false
  cells : List Bool := []              -- boundary shift register
  update : List Bool := []             -- levels driven under EXTEST
  tdo : Option Bool := none            -- none: not driven
deriving DecidableEq, Repr

/-! ## The whole device -/

/-- Everything but the queue and the test logic. -/
structure Dev where
  clk : Clk := {}
  sys : Sys := {}
  pers : Pers := {}
  port : HostPort := {}
  win : Win := {}
  rings : Rings := {}
  line : Line := {}
  heads : Quad Head := Quad.all {}
  taste : Option Taste := none
  axes : Quad Axis := ⟨{ lfsr := 1 }, { lfsr := 2 }, { lfsr := 3 }, { lfsr := 4 }⟩
  mot : Mot := {}
  sense : Oct Chan := Oct.all {}
  media : Media := {}
  sol : Oct Sol := ⟨{ lfsr := 9 }, { lfsr := 10 }, { lfsr := 11 }, { lfsr := 12 }, { lfsr := 13 }, { lfsr := 14 },
    { lfsr := 15 }, { lfsr := 16 }⟩
  solx : SolX := {}
  uart : Uart := {}
  cel : Cellar := {}
  flt : Flt := {}
  age : Age := {}
  link : Link := {}
deriving DecidableEq, Repr

/-- The state of the block: the commands that wait, first in, first out; the device; the test logic. -/
structure State where
  pending : List Instr
  dev : Dev
  tap : Tap
deriving DecidableEq, Repr

/-- The machine at the release of a power-on reset (R45, R104, R534, R604): the reset sequence is about to
take its first strap round. -/
def State.reset : State := { pending := [], dev := {}, tap := {} }

end Sys2Proof.Machine
end

