-- ==== Sys2Proof/Machine/Ops.lean ====
section
/-! DEFINITION. The operations that every family shares: the decoded personality, the window memory, the clock
and the device's own pins. -/

namespace Sys2Proof.Machine

/-! ## The personality, decoded from straps and SET states (R50, R61 to R71) -/

/-- Whether strap i reads HIGH. -/
def Dev.strap (d : Dev) (i : Nat) : Bool := d.pers.high.getLsbD i
/-- Whether strap i reads FLOAT. -/
def Dev.float (d : Dev) (i : Nat) : Bool := d.pers.float.getLsbD i
/-- Two straps as a number, the lower-numbered pin the less significant bit (R50). -/
def Dev.strap2 (d : Dev) (i : Nat) : Nat := b2n (d.strap i) + 2 * b2n (d.strap (i + 1))
/-- Stack position (R50). -/
def Dev.pos (d : Dev) : Nat := d.strap2 0
/-- Twin role: 0 single, 1 primary, 2 secondary (R50). -/
def Dev.role (d : Dev) : Nat := d.strap2 2
/-- Stack mode: 0 NONE, 1 LANES, 2 WIDE, 3 TANDEM (R50). -/
def Dev.mode (d : Dev) : Nat := d.strap2 4
/-- xSPI read latency in clocks (R50). -/
def Dev.latency (d : Dev) : Nat := [6, 8, 10, 14].getD (d.strap2 6) 6
/-- Line-tick source: 0 step, 1 encoder, 2 timer (R50). -/
def Dev.tickSource (d : Dev) : Nat := d.strap2 8
/-- UART mode: 0 off, 1 stream, 2 frame fixed, 3 frame measured (R50). -/
def Dev.uartMode (d : Dev) : Nat := d.strap2 10
/-- A three-level strap as 0 for the first, 1, 2: given the value of LOW, FLOAT and HIGH. -/
def Dev.strap3 (d : Dev) (i low flt high : Nat) : Nat :=
  if d.float i then flt else if d.strap i then high else low
/-- Spread: 0 none, 1 for 0.5 %, 2 for 1 % (R50). -/
def Dev.spread (d : Dev) : Nat := d.strap3 12 1 0 2
/-- Slow slew (R50, R52). -/
def Dev.slow (d : Dev) : Bool := d.strap 13
/-- Fault scale: 0 strict, 1 normal, 2 lenient (R50). -/
def Dev.faultScale (d : Dev) : Nat := d.strap3 14 0 1 2
/-- Factory-only cellar use (R55). -/
def Dev.factoryOnly (d : Dev) : Bool := d.strap 15

/-- State of SET pin i: 0 to 15 bin, 16 SHORT, 17 OPEN (R58). -/
def Dev.setState (d : Dev) (i : Nat) : Nat := (d.pers.sets.getD i {}).state.toNat
/-- Bin of SET pin i, with the bin that OPEN selects. -/
def Dev.setBin (d : Dev) (i dflt : Nat) : Nat := if d.setState i < 16 then d.setState i else dflt
/-- SET8 is SHORT: no motion (R66). -/
def Dev.noMotion (d : Dev) : Bool := d.setState 8 == 16
/-- SET9 is SHORT: no solenoids (R68). -/
def Dev.noSolenoids (d : Dev) : Bool := d.setState 9 == 16
/-- Full-scale sense voltage cap in 1 mV, 0 without motion (R66, R80). -/
def Dev.motorVfs (d : Dev) : Nat := if d.noMotion then 0 else [60, 100, 160, 250].getD (d.setBin 8 0 / 4) 60
/-- Chopper off-time in 1 µs (R66). R80 gives 0 with SET8 SHORT for motor_vfs alone; motor_toff shows 0 there too
(DESIGN CHOICE, log entry 118). -/
def Dev.motorToff (d : Dev) : Nat := if d.noMotion then 0 else [10, 15, 20, 30].getD (d.setBin 8 0 % 4) 10
/-- Solenoid peak cap in 1 mV, 0 without solenoids (R68). -/
def Dev.solCap (d : Dev) : Nat := if d.noSolenoids then 0 else [60, 100, 160, 250].getD (d.setBin 9 0 % 4) 60
/-- Maximum peak time in 100 µs (R68). R80 gives 0 with SET9 SHORT for sol_peak_cap alone; sol_peak_max shows 0 there
too (DESIGN CHOICE, log entry 118). -/
def Dev.solMax (d : Dev) : Nat := if d.noSolenoids then 0 else [50, 100, 200, 400].getD (d.setBin 9 0 % 4) 50
/-- Boost limit in 0.1 V, 0 for no boost (R68). -/
def Dev.boostLimit (d : Dev) : Nat := if d.noSolenoids then 0 else [0, 360, 480, 600].getD (d.setBin 9 0 / 4) 0
/-- Head-supply budget in 0.1 A (R69). -/
def Dev.budget (d : Dev) : Nat :=
  [15, 20, 30, 40, 50, 60, 80, 100, 120, 150, 200, 250, 300, 400, 500, 600].getD (d.setBin 10 0) 15
/-- Lower end of the UART group's range, the fixed rate in the fixed modes, in bit/s (R70). -/
def Dev.uartLow (d : Dev) : Nat :=
  if d.uartMode = 3 then [9600, 57600, 460800, 1500000].getD (d.setBin 11 4 / 4) 0
  else [9600, 115200, 1000000, 3000000].getD (d.setBin 11 4 / 4) 0
/-- Fixed rate or upper end of the measured range, 0 when the UART is off (R70, R80). -/
def Dev.uartRate (d : Dev) : Nat :=
  if d.uartMode = 0 then 0
  else if d.uartMode = 3 then [57600, 460800, 1500000, 3000000].getD (d.setBin 11 4 / 4) 0
  else d.uartLow
/-- The device's serial identifier, 0xFF outside frame modes (R71, R80). -/
def Dev.uartId (d : Dev) : Nat :=
  if d.uartMode < 2 then 0xFF else [0x08, 0x10, 0x18, 0x20].getD (d.setBin 11 4 % 4) 0 + d.pos
/-- Character format: 0 8N1, 1 8E1, 2 8O1, 3 8N2 (R70, R80); 0 when the UART is off (DESIGN CHOICE, log entry 118). -/
def Dev.uartFormat (d : Dev) : Nat := if d.uartMode = 1 then d.setBin 11 4 % 4 else 0
/-- The straps that are in error: FLOAT on a two-level strap, or undecided (R48, R77). -/
def Dev.strapErrors (d : Dev) : BitVec 16 := (d.pers.float &&& 0xAFFF#16) ||| d.pers.undecided
/-- The error that the straps alone make, once they are decided: its cause and pin in the order of R77 (R80). -/
def Dev.strapFault (d : Dev) : Option (Nat × Nat) :=
  if !d.pers.strapsDone then none else
  match (List.range 16).find? fun i => d.pers.float.getLsbD i && i ≠ 12 && i ≠ 14 with
  | some i => some (1, i)
  | none =>
    match (List.range 16).find? fun i => d.pers.undecided.getLsbD i with
    | some i => some (2, i)
    | none => if d.role = 3 then some (3, 2) else if d.tickSource = 3 then some (3, 8) else none
/-- The device has a personality error (R77): its straps make one, or one has been decided from its SET pins too. -/
def Dev.persError (d : Dev) : Bool := d.strapFault.isSome || d.pers.error
/-- The error concerns ST0 or ST1 (R79). -/
def Dev.posUnknown (d : Dev) : Bool := d.pers.strapsDone && (d.strapErrors.getLsbD 0 || d.strapErrors.getLsbD 1)
/-- Whether a port is active (R75). -/
def Dev.portOn (d : Dev) (p : Fin 4) : Bool := (d.pers.ports.get p).active
/-- The ports in a mask, ascending. -/
def portsOf (mask : Nat) : List (Fin 4) := fin4.filter fun p => mask.testBit p.val
/-- Mask of a list of ports. -/
def maskOf (ps : List (Fin 4)) : Nat := ps.foldl (fun m p => m + 2 ^ p.val) 0
/-- The head card in force at a port, when it is valid (R72). -/
def Dev.card (d : Dev) (p : Fin 4) : Option (List Byte) :=
  if (d.pers.ports.get p).cardStatus = 1 then (d.pers.cards.get p).image else none

/-! ## Free values -/

/-- Draw the next free value: the value and the device with its counter advanced (log entry 3). -/
def Dev.drawFree (d : Dev) : Nat × Dev := (Config.freeNat d.sys.frees, { d with sys.frees := d.sys.frees + 1 })

/-! ## The window memory (R93, R99, R104) -/

/-- Whether an offset is the owner byte of a job slot, a status slot or a pool block. -/
def isOwner (a : Nat) : Bool :=
  (0x10000 ≤ a && a < 0x30000 && a % 0x40 == 0) || (0x30000 ≤ a && a < 0x400000 && a % 0x1000 == 0)

/-- Whether an offset that nothing has written reads 0x00: owner bytes by R104, the profile area by R111
(log entry 2). Every other unwritten byte of the rings, the pool and the gauges reads a free value. -/
def knownZero (a : Nat) : Bool := isOwner a || (0x1000 ≤ a && a < 0x7000)

/-- Put a byte into a list of cells in rising order; no cell for a byte that its address reads anyway. -/
def Memory.put (m : List Host.Cell) (a : Nat) (v : Byte) : List Host.Cell :=
  match m with
  | [] => if knownZero a && v == 0 then [] else [(a, v)]
  | (b, w) :: rest =>
    if a < b then (if knownZero a && v == 0 then (b, w) :: rest else (a, v) :: (b, w) :: rest)
    else if a = b then (if knownZero a && v == 0 then rest else (a, v) :: rest)
    else (b, w) :: Memory.put rest a v

/-- The listed byte at an address. -/
def Memory.find (m : List Host.Cell) (a : Nat) : Option Byte :=
  match m with
  | [] => none
  | (b, w) :: rest => if a = b then some w else if a < b then none else Memory.find rest a

/-- Put a run of bytes. -/
def Memory.putAll (m : List Host.Cell) (a : Nat) : List Byte → List Host.Cell
  | [] => m
  | v :: vs => Memory.putAll (Memory.put m a v) (a + 1) vs

/-- The canonical form: addresses inside the 4 MiB window strictly rising, no cell that its address reads
anyway. -/
def Memory.wf : List Host.Cell → Bool
  | [] => true
  | (a, v) :: rest =>
    (a < 0x400000) && !(knownZero a && v == 0) &&
      (match rest with | [] => true | (b, _) :: _ => decide (a < b)) && Memory.wf rest

/-- The byte of the window SRAM at an offset: a listed byte, else 0x00 where R104 and R111 make it so, else a
free value (R104). -/
def Dev.ram (d : Dev) (a : Nat) : Byte :=
  match Memory.find d.win.mem a with
  | some v => v
  | none => if knownZero a then 0 else Config.sramByte d.win.epoch a

/-- n bytes of the window SRAM. -/
def Dev.rams (d : Dev) (a n : Nat) : List Byte := (List.range n).map fun i => d.ram (a + i)

/-- Write a run of bytes into the window SRAM; nothing past the end of the window exists. -/
def Dev.poke (d : Dev) (a : Nat) (vs : List Byte) : Dev :=
  if a + vs.length ≤ 0x400000 then { d with win.mem := Memory.putAll d.win.mem a vs } else d

/-- Whether the device owns the structure whose owner byte is at a (R99). -/
def Dev.owns (d : Dev) (a : Nat) : Bool := d.ram a == 0xD1

/-- The item of a structure by its owner byte: [15:14] 0 job slot, 1 status slot, 2 pool block, 3 profile section;
[13:0] index, of a section its number in the order of R106 (R570). -/
def itemOf (a : Nat) : Nat :=
  if a < 0x10000 then
    0xC000 + (if a < 0x5000 then (a - 0x1000) / 0x800 else if a < 0x5800 then 8 + (a - 0x5000) / 0x100 else 16 + (a - 0x5800) / 0x200)
  else if a < 0x20000 then (a - 0x10000) / 0x40
  else if a < 0x30000 then 0x4000 + (a - 0x20000) / 0x40
  else 0x8000 + (a - 0x30000) / 0x1000

/-- The primary of a formed pair notes a window change that it must send on the link (R570 kind 3, R590). -/
def Dev.noteChange (d : Dev) (item action : Nat) : Dev :=
  if d.link.formed && d.role == 1 && d.link.driving then
    { d with link := { d.link with changes := d.link.changes ++ [(d.port.writeCount, item, action)] } }
  else d

/-- Hand a structure back: owner byte 0x00, last (R99, R103). -/
def Dev.handBack (d : Dev) (a : Nat) : Dev := (d.poke a [0]).noteChange (itemOf a) 0

/-- Offset of a job slot, a status slot, a pool block (R93). -/
def jobSlot (n : Nat) : Nat := 0x10000 + n * 0x40
/-- Offset of a status slot. -/
def statusSlot (n : Nat) : Nat := 0x20000 + n * 0x40
/-- Offset of a pool block. -/
def poolBlock (n : Nat) : Nat := 0x30000 + n * 0x1000

/-- Pool blocks owned by the host (R98). -/
def Dev.poolFree (d : Dev) : Nat :=
  976 - (d.win.mem.filter fun c => c.1 ≥ 0x30000 && c.1 % 0x1000 == 0 && c.2 == 0xD1).length

/-! ## Profile sections (R106) -/

/-- The 28 sections in order of type and index. -/
def secType (n : Nat) : Nat := if n < 8 then 1 else if n < 16 then 2 else if n < 20 then 3 else if n < 24 then 4 else 5
/-- Index of a section within its type. -/
def secIndex (n : Nat) : Nat := if n < 8 then n else if n < 16 then n - 8 else (n - 16) % 4
/-- Number of the section with a type and an index. -/
def secNo (t i : Nat) : Nat := if t = 1 then i else if t = 2 then 8 + i else if t = 3 then 16 + i else if t = 4 then 20 + i else 24 + i
/-- Offset of a section. -/
def secAddr (n : Nat) : Nat :=
  match secType n with
  | 1 => 0x1000 + secIndex n * 0x800
  | 2 => 0x5000 + secIndex n * 0x100
  | 3 => 0x5800 + secIndex n * 0x200
  | 4 => 0x6000 + secIndex n * 0x200
  | _ => 0x6800 + secIndex n * 0x200
/-- Maximum body of a section. -/
def secMax (n : Nat) : Nat :=
  match secType n with | 1 => 1536 | 2 => 240 | 3 => 256 | 4 => 384 | _ => 256
/-- Room of a section up to the next one. -/
def secSpan (n : Nat) : Nat := match secType n with | 1 => 0x800 | 2 => 0x100 | _ => 0x200

/-- Whether section n is in force (R108). -/
def Dev.secOn (d : Dev) (n : Nat) : Bool := d.win.inForce.getLsbD n
/-- Mark section n in force or not. -/
def Dev.setSec (d : Dev) (n : Nat) (on : Bool) : Dev :=
  { d with win.inForce := if on then d.win.inForce ||| BitVec.ofNat 28 (2 ^ n)
                          else d.win.inForce &&& ~~~ BitVec.ofNat 28 (2 ^ n) }
/-- Body in use of a section, from +0x10 for body_length bytes. -/
def Dev.secBody (d : Dev) (n : Nat) : List Byte :=
  d.rams (secAddr n + 0x10) (min (le (d.rams (secAddr n + 4) 2) 0 2) (secMax n))
/-- The body padded with zeros to its maximum length: a field past body_length reads 0. -/
def Dev.secFull (d : Dev) (n : Nat) : List Byte :=
  let b := d.secBody n
  b ++ zeros (secMax n - b.length)
/-- revision of a section. -/
def Dev.secRev (d : Dev) (n : Nat) : Nat := le (d.rams (secAddr n + 8) 4) 0 4
/-- The check word of a section (R107). -/
def secCrc (hdr body : List Byte) : W32 := crc32c ((hdr.drop 4).take 8 ++ body)
/-- Write the whole of a section with a valid header and give it to the device, in force (R111). -/
def Dev.fillSec (d : Dev) (n : Nat) (body : List Byte) (rev : Nat) : Dev :=
  let head : List Byte := leBytes 2 body.length ++ [0, 0] ++ leBytes 4 rev
  let crc := crc32c (head ++ body)
  let all := [BitVec.ofNat 8 (secType n), BitVec.ofNat 8 (secIndex n), 0] ++ head ++ leBytes 4 crc.toNat ++ body
  let d := d.poke (secAddr n + 1) (all ++ zeros (secMax n - body.length))
  (d.poke (secAddr n) [0xD1]).setSec n true
/-- Renew the check word of a section whose bytes the device has changed. -/
def Dev.sealSec (d : Dev) (n : Nat) : Dev :=
  d.poke (secAddr n + 12) (leBytes 4 (secCrc (d.rams (secAddr n) 16) (d.secBody n)).toNat)

/-! ## Time and pins -/

/-- Whether an interval of n units has passed since t. -/
def Dev.past (d : Dev) (t : Ts) (n : Nat) : Bool := n ≤ since d.clk.now t

/-- The timestamp n units from now. -/
def Dev.at_ (d : Dev) (n : Nat) : Ts := d.clk.now + BitVec.ofNat 48 n

/-- The device runs: READY has risen, CLKIN has edges and the device is not in Dormant. -/
def Dev.operating (d : Dev) : Bool := d.sys.phase == .run && d.clk.clkinOk && d.sys.sleep != .dormant

/-- READY has risen since the last reset and CLKIN has edges: the comparators act, in Doze and Dormant too (R527, R532). -/
def Dev.alive (d : Dev) : Bool := d.sys.phase == .run && d.clk.clkinOk

/-- A domain runs from its fallback source, or the PLL is out of lock (R510). -/
def Dev.onFallback (d : Dev) : Bool :=
  !d.clk.locked || d.clk.core.src == .fallback || d.clk.motion.src == .fallback || d.clk.adc.src == .fallback

/-- Awake and operating: not in Doze. -/
def Dev.awake (d : Dev) : Bool := d.operating && d.sys.sleep == .awake

/-- FAULT_N goes low (R157). -/
def Dev.faultLow (d : Dev) : Dev :=
  if d.sys.faultN then { d with sys.faultN := false, sys.faultNTs := d.clk.now } else d

/-- FAULT_N rises once no FAULT record is open, no earlier than 10 µs after it fell (R157, R162). -/
def Dev.faultRelease (d : Dev) : Dev :=
  if !d.sys.faultN && d.operating && d.rings.openFaults.isEmpty && d.sys.early.isEmpty && d.past d.sys.faultNTs (10 * us)
  then { d with sys.faultN := true } else d

/-- power_state: 0 Run, 1 Idle, 2 Doze, 3 Dormant (R95, R523). Before READY rises it reads 0 (log entry 9). -/
def Dev.powerState (d : Dev) : Nat :=
  match d.sys.sleep with
  | .doze => 2
  | .dormant => 3
  | .awake => if d.sys.ready && d.rings.admitted.isEmpty then 1 else 0

/-- device_status of the identity header (R95). -/
def Dev.deviceStatus (d : Dev) : Nat :=
  b2n d.sys.ready + 2 * b2n d.cel.defaults + 4 * b2n d.factoryOnly + 8 * b2n d.link.driving +
    16 * b2n d.link.formed + 32 * b2n (!d.sys.faultN) + 64 * d.powerState

/-- The identity header (R95), with its values of the moment. -/
def Dev.identity (d : Dev) : List Byte :=
  leBytes 2 0xE10A ++ leBytes 2 0x9612 ++ [0xB1, if Config.gradeC then 1 else 0, 1, 0] ++
  leBytes 8 Config.dieId.toNat ++ leBytes 4 d.deviceStatus ++ leBytes 4 d.cel.vintage.toNat ++
  leBytes 2 1024 ++ leBytes 2 1024 ++ leBytes 2 976 ++ leBytes 2 4080 ++
  leBytes 4 d.port.writeCount.toNat ++ leBytes 4 d.port.readCount.toNat ++ leBytes 4 d.port.undecoded.toNat ++
  leBytes 4 d.port.violation.toNat ++ leBytes 4 d.port.prewrite.toNat ++ leBytes 6 d.port.lastUndecoded.toNat ++
  [0, 0] ++ leBytes 4 d.port.resends.toNat ++ zeros 192

/-- A port block (R80). A port that is off shows zero from +0x02 on, except card_status. -/
def PortPers.block (b : PortPers) : List Byte :=
  if b.active then
    [1, BitVec.ofNat 8 b.cause, BitVec.ofNat 8 b.geomSrc, BitVec.ofNat 8 b.limitSrc] ++ leBytes 2 b.dots ++
    leBytes 2 b.resolution ++ [BitVec.ofNat 8 b.lanes, BitVec.ofNat 8 b.strobes, BitVec.ofNat 8 b.maxClk,
      BitVec.ofNat 8 b.cardStatus] ++ leBytes 2 b.ceiling ++ leBytes 2 b.peakDots ++ zeros 16
  else [0, BitVec.ofNat 8 b.cause] ++ zeros 9 ++ [BitVec.ofNat 8 b.cardStatus] ++ zeros 20

/-- The personality block from +0x34 to +0xFF, with the twin role as given (R80). -/
def Dev.persTail (d : Dev) (role : Nat) : List Byte :=
  [BitVec.ofNat 8 d.pos, BitVec.ofNat 8 role, BitVec.ofNat 8 d.mode, BitVec.ofNat 8 d.latency,
    BitVec.ofNat 8 d.tickSource, BitVec.ofNat 8 d.uartMode, BitVec.ofNat 8 d.spread, BitVec.ofNat 8 (b2n d.slow),
    BitVec.ofNat 8 d.faultScale, BitVec.ofNat 8 (b2n d.factoryOnly), 0, 0] ++
  leBytes 4 (d.pos * 0x400000) ++ leBytes 2 d.motorVfs ++ leBytes 2 d.motorToff ++ leBytes 2 d.solCap ++
  leBytes 2 d.solMax ++ leBytes 2 d.boostLimit ++ leBytes 2 d.budget ++ leBytes 4 d.uartRate ++
  [BitVec.ofNat 8 d.uartId, BitVec.ofNat 8 d.uartFormat] ++ zeros 10 ++
  d.pers.ports.a.block ++ d.pers.ports.b.block ++ d.pers.ports.c.block ++ d.pers.ports.d.block ++ zeros 32

/-- personality_digest (R80). -/
def Dev.persDigest (d : Dev) : W32 := crc32c (d.persTail 0)

/-- personality_status (R80). -/
def Dev.persStatus (d : Dev) : Nat :=
  b2n d.pers.valid + 2 * b2n d.pers.error + 4 * b2n (d.pers.sets.any (·.margin)) + 8 * b2n d.pers.cardsDone +
    16 * b2n d.pers.digestDiffers + 32 * b2n d.pers.noisy + 0x100 * d.pers.cause + 0x10000 * d.pers.pin

/-- The personality block: all zero until VALID or ERROR is set (R46, R80). -/
def Dev.persBlock (d : Dev) : List Byte :=
  if !d.pers.valid && !d.pers.error then zeros 256 else
  leBytes 4 d.persStatus ++ leBytes 2 d.pers.high.toNat ++ leBytes 2 d.pers.float.toNat ++
  leBytes 4 d.pers.digest.toNat ++ zeros 4 ++
  ((List.range 12).map fun i => leBytes 2 (d.pers.sets.getD i {}).raw.toNat).flatten ++
  ((List.range 12).map fun i =>
    let s := d.pers.sets.getD i {}
    BitVec.ofNat 8 (s.state.toNat + 128 * b2n s.margin)) ++ d.persTail d.role

/-- What a host read of the window returns at an offset (R92, R93). -/
def Dev.winByte (d : Dev) (a : Nat) : Byte :=
  if a < 0x100 then d.identity.getD a 0
  else if a < 0x200 then d.persBlock.getD (a - 0x100) 0
  else if a < 0xA00 then d.ram a
  else if a < 0x1000 then 0
  else if a < 0x7000 then d.ram a
  else if a < 0x10000 then 0
  else if a < 0x400000 then d.ram a
  else 0

/-! ## Small list tools -/

/-- Element i of a list replaced. -/
def setAt {α : Type} (l : List α) (i : Nat) (f : α → α) : List α :=
  (l.zipIdx).map fun (x, j) => if j = i then f x else x

/-- Element i of a list replaced, the list grown with fill up to it where needed. -/
def putAt {α : Type} (l : List α) (i : Nat) (v fill : α) : List α :=
  if i < l.length then l.set i v else l ++ List.replicate (i - l.length) fill ++ [v]

/-- Apply a function to head port p. -/
def Dev.onHead (d : Dev) (p : Fin 4) (f : Head → Head) : Dev := { d with heads := d.heads.set p (f (d.heads.get p)) }
/-- Apply a function to axis x. -/
def Dev.onAxis (d : Dev) (x : Fin 4) (f : Axis → Axis) : Dev := { d with axes := d.axes.set x (f (d.axes.get x)) }
/-- Apply a function to solenoid channel c. -/
def Dev.onSol (d : Dev) (c : Fin 8) (f : Sol → Sol) : Dev := { d with sol := d.sol.set c (f (d.sol.get c)) }

/-- A number below n as a member of the n; 0 for a number that is not. -/
def fin4Of (n : Nat) : Fin 4 := if h : n < 4 then ⟨n, h⟩ else 0
/-- A number below 8 as a channel; 0 for a number that is not. -/
def fin8Of (n : Nat) : Fin 8 := if h : n < 8 then ⟨n, h⟩ else 0

/-- Apply a list of port actions. -/
def Dev.each4 (d : Dev) (ps : List (Fin 4)) (f : Fin 4 → Dev → Dev) : Dev := ps.foldl (fun d p => f p d) d
/-- Apply a list of channel actions. -/
def Dev.each8 (d : Dev) (cs : List (Fin 8)) (f : Fin 8 → Dev → Dev) : Dev := cs.foldl (fun d c => f c d) d

end Sys2Proof.Machine
end

