-- ==== Sys2Proof/Machine/Flags.lean ====
section
/-! DEFINITION. Codes, severities, outcomes and flags: the code table of R560 and the numbers that records carry. -/

namespace Sys2Proof.Machine

/-! ## Codes (R560) -/

/-- STROBE_GUARD -/
abbrev cStrobeGuard : W16 := 0x0101
/-- HEAD_OVERTEMP_HARD -/
abbrev cHeadOvertempHard : W16 := 0x0102
/-- HEAD_OVERTEMP_SOFT -/
abbrev cHeadOvertempSoft : W16 := 0x0103
/-- VH_LOW -/
abbrev cVhLow : W16 := 0x0104
/-- VH_HIGH -/
abbrev cVhHigh : W16 := 0x0105
/-- READBACK_MISMATCH -/
abbrev cReadbackMismatch : W16 := 0x0106
/-- HEAD_OPEN -/
abbrev cHeadOpen : W16 := 0x0107
/-- STROBE_STUCK -/
abbrev cStrobeStuck : W16 := 0x0108
/-- DOT_DEAD -/
abbrev cDotDead : W16 := 0x0109
/-- BUDGET_TRIM -/
abbrev cBudgetTrim : W16 := 0x010A
/-- CARD_DEAD_LIST -/
abbrev cCardDeadList : W16 := 0x010B
/-- TASTE_SOURCE -/
abbrev cTasteSource : W16 := 0x010C
/-- THERMISTOR_FAULT -/
abbrev cThermistorFault : W16 := 0x010D
/-- MAP_COVERAGE -/
abbrev cMapCoverage : W16 := 0x0201
/-- DEAD_TABLE_FULL -/
abbrev cDeadTableFull : W16 := 0x0202
/-- DEAD_RUN -/
abbrev cDeadRun : W16 := 0x0203
/-- BAND_DATA_OVERLAP -/
abbrev cBandDataOverlap : W16 := 0x0204
/-- CEILING_TRIM -/
abbrev cCeilingTrim : W16 := 0x0205
/-- SLICE_FENCED -/
abbrev cSliceFenced : W16 := 0x0206
/-- PRESS_DISAGREE -/
abbrev cPressDisagree : W16 := 0x0207
/-- PRESS_FAILED -/
abbrev cPressFailed : W16 := 0x0208
/-- MODEL_SATURATED -/
abbrev cModelSaturated : W16 := 0x0209
/-- OUTRANKED -/
abbrev cOutranked : W16 := 0x0301
/-- DEADLINE_PASSED -/
abbrev cDeadlinePassed : W16 := 0x0302
/-- TICK_OVERRUN -/
abbrev cTickOverrun : W16 := 0x0303
/-- DATA_LATE -/
abbrev cDataLate : W16 := 0x0304
/-- REVERSE_MOTION -/
abbrev cReverseMotion : W16 := 0x0305
/-- TICK_STALLED -/
abbrev cTickStalled : W16 := 0x0306
/-- INPUT_STEP -/
abbrev cInputStep : W16 := 0x0307
/-- TICK_TIMES -/
abbrev cTickTimes : W16 := 0x0308
/-- BAND_END_STOP -/
abbrev cBandEndStop : W16 := 0x0309
/-- AXIS_OFF -/
abbrev cAxisOff : W16 := 0x0401
/-- BACKWARD_IN_BAND -/
abbrev cBackwardInBand : W16 := 0x0402
/-- RAMP_DEFERRED -/
abbrev cRampDeferred : W16 := 0x0403
/-- AXIS_STALL -/
abbrev cAxisStall : W16 := 0x0404
/-- AXIS_JAM -/
abbrev cAxisJam : W16 := 0x0405
/-- AXIS_OVERCURRENT -/
abbrev cAxisOvercurrent : W16 := 0x0406
/-- WINDING_OPEN -/
abbrev cWindingOpen : W16 := 0x0407
/-- AXIS_CONFIG -/
abbrev cAxisConfig : W16 := 0x0408
/-- PAPER_OUT -/
abbrev cPaperOut : W16 := 0x0501
/-- NEAR_END -/
abbrev cNearEnd : W16 := 0x0502
/-- COVER_OPEN -/
abbrev cCoverOpen : W16 := 0x0503
/-- MEDIA_YANK -/
abbrev cMediaYank : W16 := 0x0504
/-- SENSOR_FOULED -/
abbrev cSensorFouled : W16 := 0x0505
/-- SENSOR_BLIND -/
abbrev cSensorBlind : W16 := 0x0506
/-- MARK_NOT_FOUND -/
abbrev cMarkNotFound : W16 := 0x0507
/-- LEARN_WEAK -/
abbrev cLearnWeak : W16 := 0x0508
/-- CUTTER_NOT_HOME -/
abbrev cCutterNotHome : W16 := 0x0509
/-- CUTTER_JAM -/
abbrev cCutterJam : W16 := 0x050A
/-- HIGH_SIDE_BUSY -/
abbrev cHighSideBusy : W16 := 0x0601
/-- COIL_HOT -/
abbrev cCoilHot : W16 := 0x0602
/-- COIL_OPEN -/
abbrev cCoilOpen : W16 := 0x0603
/-- COIL_SHORT_GND -/
abbrev cCoilShortGnd : W16 := 0x0604
/-- COIL_SHORT_SUPPLY -/
abbrev cCoilShortSupply : W16 := 0x0605
/-- BOOST_OVERVOLT -/
abbrev cBoostOvervolt : W16 := 0x0606
/-- SOLENOID_TRIM -/
abbrev cSolenoidTrim : W16 := 0x0607
/-- SOLENOIDS_OFF -/
abbrev cSolenoidsOff : W16 := 0x0608
/-- CHANNEL_FENCED -/
abbrev cChannelFenced : W16 := 0x0609
/-- CHANNEL_BUSY -/
abbrev cChannelBusy : W16 := 0x060A
/-- BLOCK_CRC -/
abbrev cBlockCrc : W16 := 0x0701
/-- RESEND_EXHAUSTED -/
abbrev cResendExhausted : W16 := 0x0702
/-- BLOCK_LENGTH -/
abbrev cBlockLength : W16 := 0x0703
/-- BLOCK_SEQ -/
abbrev cBlockSeq : W16 := 0x0704
/-- OWNER_VIOLATION -/
abbrev cOwnerViolation : W16 := 0x0705
/-- SECTION_CRC -/
abbrev cSectionCrc : W16 := 0x0706
/-- SECTION_FIELD -/
abbrev cSectionField : W16 := 0x0707
/-- SECTION_NOT_IN_FORCE -/
abbrev cSectionNotInForce : W16 := 0x0708
/-- RECORD_CRC -/
abbrev cRecordCrc : W16 := 0x0709
/-- RECORD_SEQ -/
abbrev cRecordSeq : W16 := 0x070A
/-- BAD_TYPE -/
abbrev cBadType : W16 := 0x070B
/-- BAD_FIELD -/
abbrev cBadField : W16 := 0x070C
/-- PORT_OFF -/
abbrev cPortOff : W16 := 0x070D
/-- FLUSHED -/
abbrev cFlushed : W16 := 0x070E
/-- STATUS_LOST -/
abbrev cStatusLost : W16 := 0x070F
/-- STATUS_FULL -/
abbrev cStatusFull : W16 := 0x0710
/-- SECTION_BUSY -/
abbrev cSectionBusy : W16 := 0x0711
/-- SESSION_START -/
abbrev cSessionStart : W16 := 0x0712
/-- BAND_PAUSE -/
abbrev cBandPause : W16 := 0x0713
/-- STARTED -/
abbrev cStarted : W16 := 0x0714
/-- UART_CHAR_ERROR -/
abbrev cUartCharError : W16 := 0x0801
/-- UART_CHECKSUM -/
abbrev cUartChecksum : W16 := 0x0802
/-- UART_FIELD -/
abbrev cUartField : W16 := 0x0803
/-- UART_TIMEOUT -/
abbrev cUartTimeout : W16 := 0x0804
/-- UART_OVERRUN -/
abbrev cUartOverrun : W16 := 0x0805
/-- CELLAR_DEFAULTS -/
abbrev cCellarDefaults : W16 := 0x0901
/-- STORE_STARVED -/
abbrev cStoreStarved : W16 := 0x0902
/-- VINTAGE_STORED -/
abbrev cVintageStored : W16 := 0x0903
/-- STORE_FAILED -/
abbrev cStoreFailed : W16 := 0x0904
/-- CELLAR_EMPTY -/
abbrev cCellarEmpty : W16 := 0x0905
/-- CELLAR_READ_FAIL -/
abbrev cCellarReadFail : W16 := 0x0906
/-- STORE_BUSY -/
abbrev cStoreBusy : W16 := 0x0907
/-- SECTOR_RETIRED -/
abbrev cSectorRetired : W16 := 0x0908
/-- CELLAR_WORN -/
abbrev cCellarWorn : W16 := 0x0909
/-- VINTAGE_FALLBACK -/
abbrev cVintageFallback : W16 := 0x090A
/-- CORK_IGNORED -/
abbrev cCorkIgnored : W16 := 0x090B
/-- CELLAR_CORRECTED -/
abbrev cCellarCorrected : W16 := 0x090C
/-- PLL_UNLOCK -/
abbrev cPllUnlock : W16 := 0x0A01
/-- CLK_FORCED -/
abbrev cClkForced : W16 := 0x0A02
/-- CLKIN_LOST -/
abbrev cClkinLost : W16 := 0x0A03
/-- WOKEN -/
abbrev cWoken : W16 := 0x0A04
/-- TWIN_MISMATCH -/
abbrev cTwinMismatch : W16 := 0x0B01
/-- TWIN_DIGEST_DIFFERS -/
abbrev cTwinDigestDiffers : W16 := 0x0B02
/-- TAKEOVER -/
abbrev cTakeover : W16 := 0x0B03
/-- LINK_DOWN -/
abbrev cLinkDown : W16 := 0x0B04
/-- LINK_RESEND -/
abbrev cLinkResend : W16 := 0x0B05
/-- POSITION_LOST -/
abbrev cPositionLost : W16 := 0x0B06
/-- TICK_SKEW -/
abbrev cTickSkew : W16 := 0x0B07
/-- SEQ_WATCHDOG -/
abbrev cSeqWatchdog : W16 := 0x0C01
/-- DOT_DRIFT -/
abbrev cDotDrift : W16 := 0x0C02
/-- DELAY_MARGIN -/
abbrev cDelayMargin : W16 := 0x0C03
/-- WINDING_DRIFT -/
abbrev cWindingDrift : W16 := 0x0C04
/-- COIL_DRIFT -/
abbrev cCoilDrift : W16 := 0x0C05
/-- CUTTER_SLOW -/
abbrev cCutterSlow : W16 := 0x0C06
/-- HEAD_CHANGED -/
abbrev cHeadChanged : W16 := 0x0C07

/-- Base severity of a code (R560), the first where the table names two; none for a reason, request or
report without severity. -/
def codeSev (c : W16) : Option Sev :=
  match c.toNat with
  | 0x0101 | 0x0105 | 0x010D => some .stopPort
  | 0x0102 | 0x0104 | 0x0106 | 0x0107 | 0x0303 | 0x0305 | 0x0306 | 0x0404 | 0x0405 | 0x0501 | 0x0503
  | 0x0504 | 0x0702 | 0x0710 | 0x0A01 | 0x0B04 | 0x0B06 | 0x0B07 => some .pause
  | 0x0103 | 0x0206 | 0x0506 | 0x0602 | 0x0603 | 0x0904 | 0x0906 | 0x0909 | 0x0B01 => some .derate
  | 0x0108 | 0x0207 | 0x0208 | 0x0406 | 0x0407 | 0x050A | 0x0604 | 0x0605 | 0x0606 | 0x0A02 => some .stopDevice
  | 0x0109 | 0x010A | 0x010B | 0x0202 | 0x0203 | 0x0209 | 0x0502 | 0x0505 | 0x0704 | 0x0705 | 0x0706
  | 0x0707 | 0x0709 | 0x070A | 0x070F | 0x0801 | 0x0802 | 0x0803 | 0x0804 | 0x0805 | 0x0901 | 0x0902
  | 0x0908 | 0x090A | 0x090B | 0x090C | 0x0B02 | 0x0B05 | 0x0C02 | 0x0C03 | 0x0C04 | 0x0C05 | 0x0C06
  | 0x0C07 => some .note
  | 0x0A03 | 0x0C01 => some .halt
  | _ => none

/-- Scope level of a code (R560); for the link codes stack in WIDE and TANDEM mode and device otherwise. -/
def codeLvl (d : Dev) (c : W16) : Lvl :=
  match c.toNat with
  | 0x0101 | 0x0102 | 0x0103 | 0x0104 | 0x0105 | 0x0106 | 0x0107 | 0x010D => .port
  | 0x0108 | 0x0206 | 0x0207 | 0x0208 | 0x0303 | 0x0305 | 0x0306 | 0x0404 | 0x0405 | 0x0406 | 0x0407
  | 0x0501 | 0x0503 | 0x0504 | 0x0506 | 0x050A | 0x0602 | 0x0603 | 0x0604 | 0x0605 | 0x0606 | 0x0702
  | 0x0710 | 0x0904 | 0x0906 | 0x0909 | 0x0A01 | 0x0A02 | 0x0A03 | 0x0B01 | 0x0C01 | 0x0C03 => .device
  | 0x0B04 | 0x0B06 | 0x0B07 => if d.mode ≥ 2 then .stack else .device
  | _ => .none

/-- Escalation count N under the normal scale, 0 for none, and the counting window in ms, 0 for none (R560). -/
def codeCount (c : W16) : Nat × Nat :=
  match c.toNat with
  | 0x0101 | 0x0105 | 0x010D | 0x0406 | 0x0606 | 0x0A02 => (2, 3600000)
  | 0x0102 | 0x0702 => (3, 600000)
  | 0x0104 | 0x0305 => (5, 60000)
  | 0x0106 | 0x0306 | 0x0404 | 0x0405 | 0x0603 | 0x0B04 | 0x0B07 => (3, 60000)
  | 0x0207 => (2, 86400000)
  | 0x0303 | 0x0A01 => (3, 10000)
  | 0x050A => (3, 3600000)
  | 0x0602 => (5, 600000)
  | _ => (0, 0)

/-- N scaled by the strapped fault scale (R54). -/
def Dev.scaledN (d : Dev) (n : Nat) : Nat :=
  match d.faultScale with | 0 => (n + 1) / 2 | 1 => n | _ => 2 * n

/-- Severity field of an event body (R152). -/
def Sev.code : Sev → Nat
  | .note => 0 | .derate => 1 | .pause => 2 | .stopPort => 3 | .stopDevice => 4 | .halt => 5

/-- Level field of a scope (R152). -/
def Lvl.code : Lvl → Nat
  | .none => 0 | .port => 1 | .device => 2 | .stack => 3

/-- The next level of the ladder of a scope (R541). -/
def Sev.up (l : Lvl) : Sev → Sev
  | .note => .derate
  | .derate => .pause
  | .pause => if l == .port then .stopPort else .stopDevice
  | .stopPort => .stopDevice
  | .stopDevice => .halt
  | .halt => .halt

/-- Outcome field (R11). -/
def Result.code : Result → Nat
  | .served => 0 | .delayed => 1 | .refused => 2 | .abandoned => 3

/-! ## Record types (R131, R146) -/

/-- Whether a job record's type is in the table of R131. -/
def knownType (t : Nat) : Bool :=
  [0x00, 0x10, 0x20, 0x21, 0x22, 0x30, 0x40, 0x50, 0x60, 0x61, 0x70].contains t

/-- The codes that stop a port (R560). -/
def stopsPort (c : W16) : Bool := codeSev c == some .stopPort

/-- Whether a record of this type moves the media (R131). -/
def movesMedia (t : Nat) : Bool := [0x10, 0x20, 0x21, 0x22, 0x30, 0x60].contains t

/-- Whether a record of this type claims ports (R122). -/
def claimsPorts (t : Nat) : Bool := t == 0x10 || t == 0x61

/-- Sources are kept apart by code and by port, axis or channel where R539 says so. -/
def sourceKey (c : W16) (sub : Nat) : Nat :=
  c.toNat * 16 + (if (0x101 ≤ c.toNat && c.toNat ≤ 0x107) || c.toNat = 0x10D || c.toNat / 256 = 4 || c.toNat / 256 = 6 then sub else 0)

end Sys2Proof.Machine
end

