-- ==== Sys2Proof/Machine/Operands.lean ====
section
/-! DEFINITION. The fields of job records (R120, R131), of slot plans, media profiles, ramp tables and segment
words, read from their bytes; and the forms in which records are built. -/

namespace Sys2Proof.Machine

/-! ## Job records (R120, R131) -/

/-- type of a record. -/
def rType (r : List Byte) : Nat := le r 1 1
/-- START_EVENT (R120). -/
def rStart (r : List Byte) : Bool := bit (le r 2 1) 0
/-- NO_TRIM (R120). -/
def rNoTrim (r : List Byte) : Bool := bit (le r 2 1) 1
/-- port_mask, 0 for a record that claims no port (R122). -/
def rMask (r : List Byte) : Nat := if claimsPorts (rType r) then le r 3 1 % 16 else 0
/-- job_tag. -/
def rTag (r : List Byte) : W32 := BitVec.ofNat 32 (le r 4 4)
/-- sequence. -/
def rSeq (r : List Byte) : W32 := BitVec.ofNat 32 (le r 8 4)
/-- The record as a job reference. -/
def rJob (r : List Byte) : Option (W32 × W32) := some (rSeq r, rTag r)

/-- BAND: first_block_seq. -/
def bFirst (r : List Byte) : W32 := BitVec.ofNat 32 (le r 0x0C 4)
/-- BAND: line_count. -/
def bLines (r : List Byte) : Nat := le r 0x10 4
/-- BAND: bits_per_dot. -/
def bBits (r : List Byte) : Nat := le r 0x14 1
/-- BAND: plane_mode. -/
def bPlane (r : List Byte) : Nat := le r 0x15 1
/-- BAND: media_profile. -/
def bMedia (r : List Byte) : Nat := le r 0x16 1
/-- BAND: slot_plan. -/
def bSlot (r : List Byte) : Nat := le r 0x17 1
/-- BAND: lead_in. -/
def bLead (r : List Byte) : Nat := le r 0x1C 4

/-- Offset of ramp_table in a record that moves the media. -/
def rampOff (t : Nat) : Nat :=
  match t with | 0x10 => 0x18 | 0x22 => 0x12 | 0x30 => 0x0F | 0x60 => 0x0E | _ => 0x10
/-- ramp_table of a record that moves the media. -/
def rRamp (r : List Byte) : Nat := le r (rampOff (rType r)) 1
/-- Offset of max_line_rate in a record that moves the media. -/
def rateOff (t : Nat) : Nat :=
  match t with | 0x10 => 0x20 | 0x22 => 0x18 | 0x30 => 0x18 | 0x60 => 0x14 | _ => 0x12
/-- max_line_rate of a record that moves the media. -/
def rRate (r : List Byte) : Nat := le r (rateOff (rType r)) 2
/-- P_rate of R306: 25,000,000 / max_line_rate in timestamp units, rounded up. -/
def pRate (rate : Nat) : Nat := ceilDiv 25000000 (max rate 1)

/-- FEED and BACKFEED distance, SEEK_MARK search_limit, LEARN_MEDIA distance, in 1/64 line. -/
def rDist (r : List Byte) : Nat := if rType r = 0x60 then le r 0x10 4 else le r 0x0C 4
/-- SEEK_MARK: sensor. -/
def kSensor (r : List Byte) : Nat := le r 0x10 1
/-- SEEK_MARK: edge. -/
def kEdge (r : List Byte) : Nat := le r 0x11 1
/-- SEEK_MARK: stop_offset. -/
def kStop (r : List Byte) : Int := signed 32 (le r 0x14 4)
/-- CUT: cutter. -/
def cCutter (r : List Byte) : Nat := le r 0x0C 1
/-- CUT: channel. -/
def cChannel (r : List Byte) : Nat := le r 0x0D 1
/-- CUT: cut_kind. -/
def cKind (r : List Byte) : Nat := le r 0x0E 1
/-- CUT: advance. -/
def cAdvance (r : List Byte) : Nat := le r 0x10 4
/-- CUT: backfeed. -/
def cBack (r : List Byte) : Nat := le r 0x14 4
/-- SOLENOID: channel. -/
def sChannel (r : List Byte) : Nat := le r 0x0C 1
/-- SOLENOID: pairing. -/
def sPairing (r : List Byte) : Nat := le r 0x0D 1
/-- SOLENOID: pulse_count. -/
def sCount (r : List Byte) : Nat := le r 0x0E 2
/-- SOLENOID: peak_level. -/
def sPeak (r : List Byte) : Nat := le r 0x10 2
/-- SOLENOID: peak_time_max. -/
def sPeakMax (r : List Byte) : Nat := le r 0x12 2
/-- SOLENOID: hold_level. -/
def sHold (r : List Byte) : Nat := le r 0x14 2
/-- SOLENOID: hold_time. -/
def sHoldTime (r : List Byte) : Nat := le r 0x16 2
/-- SOLENOID: pulse_period. -/
def sPeriod (r : List Byte) : Nat := le r 0x18 2
/-- SOLENOID: max_delay. -/
def sDelay (r : List Byte) : Nat := le r 0x1C 4
/-- ADOPT_PROFILE: section_type. -/
def aType (r : List Byte) : Nat := le r 0x0C 1
/-- ADOPT_PROFILE: section_index. -/
def aIndex (r : List Byte) : Nat := le r 0x0D 1
/-- ADOPT_PROFILE: direction. -/
def aDir (r : List Byte) : Nat := le r 0x0E 1
/-- ADOPT_PROFILE: cellar_slot. -/
def aSlot (r : List Byte) : Nat := le r 0x0F 1
/-- LEARN_MEDIA: sensor_mask. -/
def lMask (r : List Byte) : Nat := le r 0x0C 1
/-- LEARN_MEDIA: media_section. -/
def lSec (r : List Byte) : Nat := le r 0x0D 1
/-- TASTE_HEAD: first_dot. -/
def tFirst (r : List Byte) : Nat := le r 0x0C 2
/-- TASTE_HEAD: dot_count. -/
def tCount (r : List Byte) : Nat := le r 0x0E 2
/-- BARRIER: FLUSH_ON_FAIL. -/
def barrierFlush (r : List Byte) : Bool := bit (le r 0x0C 1) 0

/-- Whether a record has nothing to do by its field map (R128 step 6, R129). -/
def rZero (r : List Byte) : Bool :=
  match rType r with
  | 0x10 => bLines r == 0
  | 0x20 | 0x21 | 0x22 | 0x60 => rDist r == 0
  | 0x40 => sCount r == 0
  | 0x61 => tCount r == 0
  | _ => false

/-- The record crc, with +0x00 taken as the given byte (R121). -/
def recordCrc (first : Byte) (r : List Byte) : W32 := crc32c (first :: (r.drop 1).take 59)

/-- Whether a job record's check word verifies (R121). -/
def jobCrcOk (r : List Byte) : Bool := le r 0x3C 4 == (recordCrc 0xD1 r).toNat

/-! ## Status records (R120, R146, R148, R152, R153) -/

/-- The 64 bytes of a status record: its body from +0x1A is padded with zeros; crc by R121. -/
def statusBytes (ty flags mask : Nat) (tag seq : W32) (ts : Ts) (code : W16) (tick : Ts) (body : List Byte) : List Byte :=
  let r : List Byte := [0, BitVec.ofNat 8 ty, BitVec.ofNat 8 flags, BitVec.ofNat 8 mask] ++ leBytes 4 tag.toNat ++
    leBytes 4 seq.toNat ++ leBytes 6 ts.toNat ++ leBytes 2 code.toNat ++ leBytes 6 tick.toNat ++
    (body ++ zeros (34 - body.length)).take 34
  r ++ leBytes 4 (crc32c r).toNat

/-- The event body from +0x1A (R152). -/
def eventBody (sev : Nat) (lvl : Lvl) (port pos : Nat) (job related : W32) (count : Nat) (detail : List Byte) : List Byte :=
  [BitVec.ofNat 8 sev, BitVec.ofNat 8 (lvl.code + 4 * (port % 4) + 16 * (pos % 4))] ++ leBytes 4 job.toNat ++
    leBytes 4 related.toNat ++ leBytes 2 (min count 65535) ++ [0, 0] ++ detail

/-- A little-endian field of n bytes for a detail or a result, an integer taken in two's complement. -/
def sBytes (n : Nat) (v : Int) : List Byte := leBytes n (unsigned (8 * n) v)

/-- Line tick field for none (R282, R368 and others). -/
def noTick : Nat := 0xFFFFFFFFFFFF

/-- A number held below a limit (saturation). -/
def sat (n v : Nat) : Nat := min v (2 ^ n - 1)

end Sys2Proof.Machine
end

