-- ==== Sys2Proof/Machine/Records.lean ====
section
/-! DEFINITION. The status queue and the status ring: how a record is made, queued, dropped and written
(R140 to R147). -/

namespace Sys2Proof.Machine

/-- What may become of a record that finds no room (R143, R144). -/
inductive Keep where
  | drop | never | fault
deriving DecidableEq, Repr

/-- Entries of the unreserved part in use: 160 entries of which 32 are reserved (R143). -/
def Rings.unreserved (g : Rings) : Nat := (g.queue.filter fun q => !q.reserved).length
/-- Reserved entries in use. -/
def Rings.inReserve (g : Rings) : Nat := (g.queue.filter fun q => q.reserved).length

/-- Insert a queue entry behind every record made earlier (R144). -/
def insertRec (q : QRec) : List QRec → List QRec
  | [] => [q]
  | x :: xs => if laterSeq (rSeq x.bytes) (rSeq q.bytes) then q :: x :: xs else x :: insertRec q xs

/-- The sequence of the next status record, and the counter behind it, which skips 0 (R141). -/
def nextStatusSeq (s : W32) : W32 := if s + 1 = 0 then 1 else s + 1

/-- Put a finished record into the queue if there is room for its kind, else let it wait (R143, R144). -/
def Rings.admitRec (g : Rings) (k : Keep) (bytes : List Byte) : Rings :=
  if g.unreserved < 128 then { g with queue := insertRec ⟨bytes, false⟩ g.queue }
  else if k == .fault && g.inReserve < 32 then { g with queue := insertRec ⟨bytes, true⟩ g.queue }
  else { g with waiting := g.waiting ++ [bytes] }

/-- Records that wait enter the queue as space allows, in the order in which they were made (R144). -/
def Rings.drain (g : Rings) : Nat → Rings
  | 0 => g
  | n + 1 =>
    match g.waiting with
    | [] => g
    | b :: rest =>
      if g.unreserved < 128 then Rings.drain { g with waiting := rest, queue := insertRec ⟨b, false⟩ g.queue } n
      else if rType b = 0x82 && g.inReserve < 32 then
        Rings.drain { g with waiting := rest, queue := insertRec ⟨b, true⟩ g.queue } n
      else g

/-- Make a status record at this moment: answer its sequence, 0 for a record dropped (R141, R143). -/
def Dev.make (d : Dev) (k : Keep) (ty flags mask : Nat) (tag : W32) (code : W16) (ts tick : Ts) (body : List Byte) :
    W32 × Dev :=
  if k == .drop && 128 ≤ d.rings.unreserved then
    (0, { d with rings := { d.rings with
      lost := sat 32 (d.rings.lost + 1), lostLast := ts,
      lostFirst := if d.rings.lost = 0 then ts else d.rings.lostFirst } })
  else
    let seq := d.rings.statusSeq
    let bytes := statusBytes ty flags mask tag seq ts code tick body
    (seq, { d with
      rings := { d.rings.admitRec k bytes with statusSeq := nextStatusSeq seq }
      link.statusCrc := if d.link.formed then crcRun d.link.statusCrc bytes else d.link.statusCrc })

/-- Whether a report without severity is one of the records of R321, which are never dropped; every report
without severity is treated so (log entry 10). -/
def reportKeep (sev : Option Sev) : Keep :=
  match sev with | some .note => .drop | none => .never | _ => .fault

/-- Post an EVENT (R147, R152). flags holds the status flags beyond JOB_VALID. -/
def Dev.event (d : Dev) (r : Rise) (flags count : Nat) (sevField : Nat) (keep : Keep) : W32 × Dev :=
  let job := r.job.getD (0, 0)
  d.make keep 0x81 (flags + 128 * b2n r.job.isSome) r.ports job.2 r.code d.clk.now d.clk.tickNo
    (eventBody sevField r.lvl r.port (r.origin.getD d.pos) job.1 0 count r.detail)

/-- Post a report without severity or an EVENT of NOTE severity that is not counted (R147, R540). -/
def Dev.report (d : Dev) (r : Rise) : Dev := (d.event r 0 0 0 (reportKeep r.sev)).2

/-- Post a NOTE event with its table scope (R147). -/
def Dev.note (d : Dev) (code : W16) (detail : List Byte) : Dev :=
  d.report { code := code, sev := some .note, lvl := codeLvl d code, detail := detail }

/-- Detail of STATUS_LOST (R631). -/
def lostDetail (g : Rings) : List Byte := leBytes 4 g.lost ++ leBytes 6 g.lostFirst.toNat ++ leBytes 6 g.lostLast.toNat

/-- After NOTE events were dropped, STATUS_LOST is posted when space allows (R143). -/
def Dev.reportLost (d : Dev) : Dev :=
  if d.rings.lost > 0 && d.rings.unreserved < 128 then
    let det := lostDetail d.rings
    let d := { d with rings := { d.rings with lost := 0 } }
    (d.event { code := cStatusLost, sev := some .note, detail := det } 64 0 0 .drop).2
  else d

/-- The status writer: when the device owns the slot at its status pointer, the next queued record goes there,
body and crc first, owner byte last (R140, R141, R144). -/
def Dev.writeStatus (d : Dev) : Dev :=
  match d.rings.queue with
  | [] => d
  | q :: rest =>
    let a := statusSlot d.rings.statusPtr
    if d.owns a then
      let d := (d.poke (a + 1) (q.bytes.drop 1)).handBack a
      let g := { d.rings with
        queue := rest, statusPtr := (d.rings.statusPtr + 1) % 1024
        faultSlots := if rType q.bytes = 0x82 then (d.rings.statusPtr, rSeq q.bytes) :: d.rings.faultSlots else d.rings.faultSlots }
      { d with rings := g.drain g.waiting.length }.reportLost
    else d

/-- A returned FAULT record is no longer open (R142, R156). -/
def Rings.close (g : Rings) (seq : W32) : Rings := { g with openFaults := g.openFaults.filter (· != seq) }

/-- Post a RESEND_REQUEST (R153). -/
def Dev.postResend (d : Dev) (code : W16) (block : Nat) (seq : W32) (attempt : Nat) (bflags : Byte) : Dev :=
  (d.make .never 0x83 0 0 0 code d.clk.now d.clk.tickNo
    (leBytes 2 block ++ leBytes 4 seq.toNat ++ [BitVec.ofNat 8 attempt, bflags])).2

/-- Post the COMPLETE record of a job record (R146, R148). The timestamp and tick are those given. -/
def Dev.postComplete (d : Dev) (raw : List Byte) (res : Result) (lvl : Lvl) (origin : Nat) (flags : Nat) (code : W16)
    (delay : Nat) (ref : W32) (detail aux : Nat) (result : List Byte) (ts tick : Ts) : Dev :=
  let body := [BitVec.ofNat 8 (rType raw),
      BitVec.ofNat 8 (res.code + 4 * lvl.code + (if lvl == .stack then 16 * (origin % 4) else 0))] ++
    leBytes 4 (rSeq raw).toNat ++ leBytes 4 (if res == .delayed then sat 32 delay else 0) ++ leBytes 4 ref.toNat ++
    leBytes 2 (sat 16 detail) ++ leBytes 2 (sat 16 aux) ++ (if res == .refused then [] else result.take 16)
  (d.make .never 0x80 (128 + flags) (rMask raw) (rTag raw) code ts tick body).2

end Sys2Proof.Machine
end

