-- ==== Sys2Proof/Machine/Ramp.lean ====
section
/-! DEFINITION. Ramp tables: checking them, evaluating their segments, and the ladder of line speeds
(R335 to R339, R345 to R347). -/

namespace Sys2Proof.Machine

/-- One segment of a table with its start velocity (R335, R336). -/
structure RampSeg where
  dt : Nat
  dpos : Nat
  v0 : Nat
  v1 : Nat
  decel : Bool
deriving DecidableEq, Repr

/-- The segments of a body, each with the start velocity that R336 gives it. -/
def rampSegsFrom (body : List Byte) (v0 : Nat) : Nat → Nat → List RampSeg
  | 0, _ => []
  | n + 1, i =>
    let v1 := le body (16 * i + 8) 4
    ⟨le body (16 * i) 4, le body (16 * i + 4) 4, v0, v1, bit (le body (16 * i + 12) 1) 0⟩ ::
      rampSegsFrom body v1 n (i + 1)

/-- The segments of a ramp table body. -/
def rampSegs (body : List Byte) : List RampSeg := rampSegsFrom body 0 (body.length / 16) 0

/-- Coefficients c3, c2, c1 of a cubic over a travel, all in 1/65,536 microstep (R338). -/
def cubic (T travel v0 v1 : Nat) : Int × Int × Int :=
  let P : Int := (travel : Nat)
  let D0 : Int := ((T * v0 * 4096) / 100000000 : Nat)
  let D1 : Int := ((T * v1 * 4096) / 100000000 : Nat)
  (-2 * P + D0 + D1, 3 * P - 2 * D0 - D1, D0)

/-- Position u (10 ns) into a cubic over a travel, in 1/65,536 microstep (R338). -/
def posAt (T travel v0 v1 u : Nat) : Int :=
  let (c3, c2, c1) := cubic T travel v0 v1
  let tau : Int := ((u * 2 ^ 24) / T : Nat)
  let s := (c3 * tau) / (2 ^ 24 : Nat) + c2
  let s := (s * tau) / (2 ^ 24 : Nat) + c1
  (s * tau) / (2 ^ 24 : Nat)

/-- Position u into a segment of whole microsteps (R338). -/
def segPos (T dpos v0 v1 u : Nat) : Int := posAt T (dpos * 65536) v0 v1 u

/-- Velocity u into a cubic, in 1/16 microstep/s, truncated (R338). -/
def velAt (T travel v0 v1 u : Nat) : Int :=
  let (c3, c2, c1) := cubic T travel v0 v1
  let q : Int := (2 ^ 24 : Nat)
  let tau : Int := ((u * 2 ^ 24) / T : Nat)
  let num := 3 * c3 * tau * tau + 2 * c2 * tau * q + c1 * q * q
  (num * 100000000).tdiv (4096 * (T : Int) * q * q)

/-- Velocity u into a segment of whole microsteps. -/
def segVel (T dpos v0 v1 u : Nat) : Int := velAt T (dpos * 65536) v0 v1 u

/-- A u above lo and at most hi at which a test holds, the one below it failing the test, by halving. -/
def halve (p : Nat → Bool) : Nat → Nat → Nat → Nat
  | 0, _, hi => hi
  | n + 1, lo, hi =>
    if hi ≤ lo + 1 then hi else
      let mid := (lo + hi) / 2
      if p mid then halve p n lo mid else halve p n mid hi

/-- The first u from u on that meets a test, within n of it. -/
def firstFrom (p : Nat → Bool) : Nat → Nat → Nat
  | 0, u => u
  | n + 1, u => if p u then u else firstFrom p n (u + 1)

/-- The first u from u down that meets a test, within n of it. -/
def firstDown (p : Nat → Bool) : Nat → Nat → Nat
  | 0, u => u
  | n + 1, u => if p u then u else firstDown p n (u - 1)

/-- The least u above lo, up to hi, at which a cubic's position reaches a goal. The truncations of R338 keep pos(u) less
than 3 below a curve that never falls (R337), so no u before the first that comes within 3 of the goal can reach it. -/
def leastU (T travel v0 v1 : Nat) (goal : Int) (lo hi : Nat) : Nat :=
  let b := halve (fun u => decide (goal - 3 ≤ posAt T travel v0 v1 u)) 40 lo hi
  firstFrom (fun u => decide (goal ≤ posAt T travel v0 v1 u)) (hi - b) b

/-- The greatest u up to hi at which a cubic's position is at or below a goal: none is at or behind the first that lies 4 or
more above the goal. -/
def greatestU (T travel v0 v1 : Nat) (goal : Int) (hi : Nat) : Nat :=
  let b := halve (fun u => decide (goal + 4 ≤ posAt T travel v0 v1 u)) 40 0 hi
  firstDown (fun u => decide (posAt T travel v0 v1 u ≤ goal)) b b

/-- Time of step k of a segment after the step before it at u: the least u at which the position reaches it, the last at the
end (R339). -/
def stepTime (T dpos v0 v1 u k : Nat) : Nat :=
  if dpos ≤ k then T else leastU T (dpos * 65536) v0 v1 ((k * 65536 : Nat) : Int) u T

/-- Position u into a segment, from its start. -/
def Seg.pos (s : Seg) (u : Nat) : Int := posAt s.t s.travel s.v0 s.vEnd (s.lo + u) - posAt s.t s.travel s.v0 s.vEnd s.lo

/-- Velocity u into a segment. -/
def Seg.vel (s : Seg) (u : Nat) : Nat := (velAt s.t s.travel s.v0 s.vEnd (s.lo + u)).toNat

/-- A segment ends on a whole microstep. -/
def Seg.whole (s : Seg) : Bool := ((s.frac : Int) + s.pos s.len) % 65536 == 0

/-- Time, from the start of the segment, of its step k after the one before it at u (R339): of a part, the least u at which
the position of the whole trajectory reaches the step. -/
def Seg.stepAt (s : Seg) (u k : Nat) : Nat :=
  if s.dpos ≤ k && s.whole then s.len
  else leastU s.t s.travel s.v0 s.vEnd (posAt s.t s.travel s.v0 s.vEnd s.lo + ((k * 65536 : Nat) : Int) - (s.frac : Int)) (s.lo + u) (s.lo + s.len) - s.lo

/-! ## Checks (R337) -/

/-- Whether the greatest velocity inside a segment exceeds 3,200,000: at both ends and at the stationary point
of the velocity when it lies inside (R337). -/
def overSpeed (s : RampSeg) : Bool :=
  -- in units of 1/1,600,000,000 microstep
  let k : Int := 1600000000
  let d0 : Int := (s.dt * s.v0 : Nat)
  let d1 : Int := (s.dt * s.v1 : Nat)
  let P : Int := k * s.dpos
  let c3 := -2 * P + d0 + d1
  let c2 := 3 * P - 2 * d0 - d1
  -- tau = -c2 / (3 c3); velocity there is (d0 - c2^2 / (3 c3)) / dt
  let inside := if c3 > 0 then decide (-c2 > 0 ∧ -c2 < 3 * c3) else if c3 < 0 then decide (c2 > 0 ∧ c2 < -3 * c3) else false
  3200000 < s.v0 || 3200000 < s.v1 ||
    (inside && (if c3 > 0 then decide (d0 * (3 * c3) - c2 * c2 > 3200000 * s.dt * (3 * c3))
                else decide (d0 * (3 * c3) - c2 * c2 < 3200000 * s.dt * (3 * c3))))

/-- First element of a list that fails a test, by index. -/
def findIdx? {α : Type} (p : α → Bool) : List α → Nat → Option Nat
  | [], _ => none
  | x :: xs, i => if p x then some i else findIdx? p xs (i + 1)

/-- R337 with R178 and R628: the offset within the section of the first thing wrong with a table, none when it
is good. -/
def rampBad (body : List Byte) : Option Nat :=
  let n := body.length / 16
  if body.length % 16 ≠ 0 || n < 2 || 96 < n then some 4 else
  let segs := rampSegs body
  let bad1 := findIdx? (fun s => s.dt == 0 || s.dpos == 0 || 3200000 < s.v1) segs 0
  match bad1 with
  | some i =>
    let s := segs.getD i ⟨0, 0, 0, 0, false⟩
    some (16 + 16 * i + (if s.dt = 0 then 0 else if s.dpos = 0 then 4 else 8))
  | none =>
    let a := (segs.takeWhile fun s => !s.decel).length
    if a = 0 then some (16 + 12) else if a = n then some (16 + 16 * (n - 1) + 12) else
    match findIdx? (fun s => !s.decel) (segs.drop a) a with
    | some i => some (16 + 16 * i + 12)
    | none =>
      match findIdx? (fun s => if s.decel then s.v0 ≤ s.v1 else s.v1 ≤ s.v0) segs 0 with
      | some i => some (16 + 16 * i + 8)
      | none =>
        if (segs.getLastD ⟨0, 0, 0, 1, true⟩).v1 ≠ 0 then some (16 + 16 * (n - 1) + 8) else
        match findIdx? (fun s => 4800000000 * s.dpos < s.dt * max s.v0 s.v1) segs 0 with
        | some i => some (16 + 16 * i)
        | none => (findIdx? overSpeed segs 0).map fun i => 16 + 16 * i

/-! ## The ladder (R345, R347) -/

/-- Velocity of a curve where its position first reaches a goal in 1/65,536 microstep; vEnd beyond it. -/
def curveUp (vEnd : Nat) : List RampSeg → Int → Nat
  | [], _ => vEnd
  | s :: rest, goal =>
    let len : Int := (s.dpos * 65536 : Nat)
    if goal ≤ len then
      if goal ≤ 0 then s.v0 else
      (segVel s.dt s.dpos s.v0 s.v1 (leastU s.dt (s.dpos * 65536) s.v0 s.v1 goal 0 s.dt)).toNat
    else curveUp vEnd rest (goal - len)

/-- Velocity of the deceleration curve at the greatest u at which its position is at or below a goal. -/
def curveDown (vEnd : Nat) : List RampSeg → Int → Nat
  | [], _ => vEnd
  | s :: rest, goal =>
    let len : Int := (s.dpos * 65536 : Nat)
    if goal < len then
      (segVel s.dt s.dpos s.v0 s.v1 (greatestU s.dt (s.dpos * 65536) s.v0 s.v1 goal s.dt)).toNat
    else if goal = len && rest.isEmpty then s.v1
    else curveDown vEnd rest (goal - len)

/-- Time a curve takes to reach a goal in 1/65,536 microstep, in 10 ns; its whole time where it does not. -/
def curveTime : List RampSeg → Int → Nat
  | [], _ => 0
  | s :: rest, goal =>
    let len : Int := (s.dpos * 65536 : Nat)
    if goal ≤ len then (if goal ≤ 0 then 0 else leastU s.dt (s.dpos * 65536) s.v0 s.v1 goal 0 s.dt)
    else s.dt + curveTime rest (goal - len)

/-- Travel of a curve in microsteps. -/
def curveLen (l : List RampSeg) : Nat := l.foldl (fun t s => t + s.dpos) 0

/-- The ladder of a table for a leader of lead microsteps per line in units of 2 to the minus 32 (R345). -/
def mkLadder (body : List Byte) (lead : Nat) : Ladder :=
  let segs := rampSegs body
  let acc := segs.filter fun s => !s.decel
  let dec := segs.filter fun s => s.decel
  let vTop := (acc.getLastD ⟨0, 0, 0, 0, false⟩).v1
  let la := curveLen acc * 65536
  let ld := curveLen dec * 65536
  -- rungs below the curve's end; beyond it the velocity is vTop
  let na := min 4096 (la * 65536 / max lead 1)
  let nd := min 4096 (ld * 65536 / max lead 1)
  { lead := lead, vTop := vTop, quarter := curveTime acc ((ceilDiv lead 262144 : Nat) : Int)
    up := (List.range na).map fun i => curveUp vTop acc ((((i + 1) * lead + 65535) / 65536 : Nat) : Int),
    down := (List.range nd).map fun i => curveDown vTop dec ((ld : Int) - ((((i + 1) * lead + 65535) / 65536 : Nat) : Int)) }

/-- A_n (R345). -/
def Ladder.A (l : Ladder) (n : Nat) : Nat := if n = 0 then 0 else l.up.getD (n - 1) l.vTop
/-- D_n (R345). -/
def Ladder.D (l : Ladder) (n : Nat) : Nat := if n = 0 then 0 else l.down.getD (n - 1) l.vTop

/-- A period longer than any the ladder gives: that of velocity 0. -/
def noPer : Nat := 2 ^ 40

/-- per(v) in 40 ns units (R347). -/
def Ladder.per (l : Ladder) (v : Nat) : Nat := if v = 0 then noPer else ceilDiv (l.lead * 400000000) (v * 2 ^ 32)

/-- Greatest n from k down to 0 with per(f n) at least p. -/
def greatestPer (l : Ladder) (f : Nat → Nat) (p : Nat) : Nat → Nat
  | 0 => 0
  | n + 1 => if p ≤ l.per (f (n + 1)) then n + 1 else greatestPer l f p n

/-- p_acc after a line of period p, 0 for rest (R347). -/
def Ladder.pAcc (l : Ladder) (p : Nat) : Nat :=
  if p = 0 then l.per (l.A 1)
  else if p ≤ l.per l.vTop then l.per l.vTop
  else l.per (l.A (greatestPer l l.A p l.up.length + 1))

/-- Least n from k on with per(D_n) at most p, for f fuel. -/
def leastStop (l : Ladder) (p : Nat) : Nat → Nat → Nat
  | 0, n => n
  | f + 1, n => if l.per (l.D n) ≤ p then n else leastStop l p f (n + 1)

/-- nstop(p) (R347). -/
def Ladder.nstop (l : Ladder) (p : Nat) : Nat := leastStop l p (l.down.length + 1) 1

/-- pdec for a line i = j - k - 1 lines after the one being committed and a required period (R347). -/
def Ladder.pdec (l : Ladder) (i P : Nat) : Nat :=
  if P ≤ l.per l.vTop then 0 else
  let m := greatestPer l l.D P l.down.length
  if l.down.length < m + i then 0 else l.per (l.D (m + i))

/-- R346: either curve spans more than 4,096 leads, or a rung rises by more than a factor of 3. -/
def ladderBad (body : List Byte) (l : Ladder) : Bool :=
  let segs := rampSegs body
  let la := curveLen (segs.filter fun s => !s.decel)
  let ld := curveLen (segs.filter fun s => s.decel)
  4096 * l.lead < la * 2 ^ 32 || 4096 * l.lead < ld * 2 ^ 32 ||
    (List.range l.up.length).any (fun i => 3 * l.A (i + 1) < l.A (i + 2)) ||
    (List.range l.down.length).any (fun i => 3 * l.D (i + 1) < l.D (i + 2))

end Sys2Proof.Machine
end

