-- ==== Sys2Proof/Machine/Motion.lean ====
section
/-! DEFINITION. The interpolation group: media sections and axis entries, the base, planning line by line and
issuing steps (R331, R339 to R351, R370). -/

namespace Sys2Proof.Machine

/-! ## Media section fields, by offset from the start of the section (R370, R372, R401) -/

/-- All the bytes of a section, its body padded with zeros. -/
def Dev.secRaw (d : Dev) (n : Nat) : List Byte := d.rams (secAddr n) 16 ++ d.secFull n
/-- Bytes of media section n. -/
def Dev.mediaSec (d : Dev) (n : Nat) : List Byte := d.secRaw (16 + n)
/-- reverse_tolerance. -/
def mTol (m : List Byte) : Nat := le m 0x11 1
/-- cover_input. -/
def mCover (m : List Byte) : Nat := le m 0x12 1
/-- counts_per_line. -/
def mCpl (m : List Byte) : Nat := le m 0x14 4
/-- soft_limit. -/
def mSoft (m : List Byte) : Int := signed 12 (le m 0x18 2)
/-- head_power. -/
def mPower (m : List Byte) : Nat := le m 0x1A 2
/-- yank_limit. -/
def mYank (m : List Byte) : Nat := le m 0x1C 2
/-- gap_min. -/
def mGapMin (m : List Byte) : Nat := le m 0x1E 2
/-- gap_max. -/
def mGapMax (m : List Byte) : Nat := le m 0x20 2
/-- Entry of tone curve c (R210). -/
def mTone (m : List Byte) (c i : Nat) : Nat := le m (0x30 + 0x20 * c + 2 * i) 2
/-- Offset of the entry of channel c. -/
def chOff (c : Nat) : Nat := 0x70 + 8 * c
/-- role of channel c. -/
def mRole (m : List Byte) (c : Nat) : Nat := le m (chOff c) 1
/-- emitter of channel c. -/
def mEmit (m : List Byte) (c : Nat) : Nat := le m (chOff c + 1) 1
/-- level_media of channel c. -/
def mLevM (m : List Byte) (c : Nat) : Nat := le m (chOff c + 2) 2 % 4096
/-- level_space of channel c. -/
def mLevS (m : List Byte) (c : Nat) : Nat := le m (chOff c + 4) 2 % 4096
/-- hysteresis of channel c. -/
def mHyst (m : List Byte) (c : Nat) : Nat := le m (chOff c + 6) 1
/-- Debounce of channel c in samples. -/
def mDeb (m : List Byte) (c : Nat) : Nat := 2 ^ (le m (chOff c + 7) 1 % 4)
/-- COMP_ON of channel c. -/
def mComp (m : List Byte) (c : Nat) : Bool := bit (le m (chOff c + 7) 1) 2
/-- The entry of axis x (R331). -/
def mAxis (m : List Byte) (x : Nat) : List Byte := (m.drop (0xB0 + 12 * x)).take 12

/-- ustep of an axis entry. -/
def eUstep (e : List Byte) : Nat := le e 0 1
/-- run_level. -/
def eRun (e : List Byte) : Nat := le e 1 1
/-- hold_level. -/
def eHold (e : List Byte) : Nat := le e 2 1
/-- drive. -/
def eDrive (e : List Byte) : Nat := le e 3 1
/-- ratio as stored. -/
def eRatio (e : List Byte) : Nat := le e 4 4
/-- ratio of a ribbon axis, signed. -/
def eRatioS (e : List Byte) : Int := signed 32 (le e 4 4)
/-- release_time. -/
def eRelease (e : List Byte) : Nat := le e 8 2
/-- stall_duty. -/
def eStall (e : List Byte) : Nat := le e 10 1
/-- jam_limit. -/
def eJam (e : List Byte) : Nat := le e 11 1
/-- INVERT. -/
def eInvert (e : List Byte) : Bool := bit (eDrive e) 4
/-- BRAKE. -/
def eBrake (e : List Byte) : Bool := bit (eDrive e) 5
/-- STALL_ON. -/
def eStallOn (e : List Byte) : Bool := bit (eDrive e) 6
/-- JAM_ON. -/
def eJamOn (e : List Byte) : Bool := bit (eDrive e) 7

/-- L_lead of a media section in units of 2 to the minus 32 microstep (R340). -/
def leadOf (m : List Byte) : Nat :=
  let l0 := eRatio (mAxis m 0)
  max (l0 * 65536) (max ((eRatioS (mAxis m 1)).natAbs * l0) ((eRatioS (mAxis m 2)).natAbs * l0))

/-- The current media section (R333). -/
def Dev.curMedia (d : Dev) : List Byte := d.mediaSec d.mot.curMedia

/-- The entry of channel c. -/
def mChan (m : List Byte) (c : Nat) : List Byte := (m.drop (chOff c)).take 8

/-- A channel under an entry: one that has changed makes it take its state anew, and samples taken in the 100 µs after a change of
the emitter field are not classified (R374, R377). -/
def Chan.under (s : Chan) (e : List Byte) (now : Ts) : Chan :=
  if s.entry = e then s else
  { s with entry := e, space := none, run := 0, leadEdge := none, mediaTs := none
           settleTs := if le s.entry 1 1 = le e 1 1 then s.settleTs else some now }

/-- The channels follow the entries of the current media section, whether another section has become current, or this one has
been handed over or filled (R333, R374, R377). -/
def Dev.syncChannels (d : Dev) : Dev :=
  if !d.secOn (16 + d.mot.curMedia) then d else
  let m := d.curMedia
  { d with sense := d.sense.mapIdx fun c s => s.under (mChan m c.val) d.clk.now }

/-- Media section n becomes the current one (R333). -/
def Dev.makeCurrent (d : Dev) (n : Nat) : Dev := { d with mot.curMedia := n }.syncChannels

/-! ## Windings (R357, R358) -/

/-- The built-in table T (R357). -/
def sineTable : List Nat :=
  [0, 6, 13, 19, 25, 31, 37, 44, 50, 56, 62, 68, 74, 80, 86, 92,
   98, 103, 109, 115, 120, 126, 131, 136, 142, 147, 152, 157, 162, 167, 171, 176,
   180, 185, 189, 193, 197, 201, 205, 208, 212, 215, 219, 222, 225, 228, 231, 233,
   236, 238, 240, 242, 244, 246, 247, 249, 250, 251, 252, 253, 254, 254, 255, 255]

/-- Magnitude of S at a phase (R357). -/
def sineOf (a : BitVec 8) : Nat :=
  let x := a.toNat % 128
  if x < 64 then sineTable.getD x 0 else if x = 64 then 255 else sineTable.getD (128 - x) 0

/-- S at a phase (R357). -/
def sine (a : BitVec 8) : Int := if a < 128 then sineOf a else -(sineOf a : Int)

/-- AX3 is a DC axis (R328). -/
def Dev.auxDc (d : Dev) : Bool := d.pers.axisCfg.d == 2

/-- The signed target of a winding, in 1/255 of the level: A's S at the phase, B's at the phase less 64 (R357). A DC axis has
full drive on winding A, its sign the direction of travel, and no winding B (R323, R356, R358). -/
def Axis.target (a : Axis) (dc b : Bool) : Int :=
  if dc then (if b then 0 else if a.fwd != eInvert a.entry then 255 else -255)
  else sine (if b then a.phase - 64 else a.phase)

/-- DAC code of a winding under motor_vfs (R358). -/
def Axis.code (a : Axis) (vfs : Nat) (dc b : Bool) : Nat := vfs * 4 * a.level * (a.target dc b).natAbs / 65025

/-- Whether an axis is a DC axis. -/
def Dev.dcAxis (d : Dev) (x : Fin 4) : Bool := d.pers.axisCfg.get x == 2

/-- DAC code of a winding: A at the phase, B at the phase less 64; a DC axis takes 255 (R358). -/
def Dev.windCode (d : Dev) (x : Fin 4) (b : Bool) : Nat := (d.axes.get x).code d.motorVfs (d.dcAxis x) b

/-- Field of a winding. -/
def Axis.wind (a : Axis) (b : Bool) : Winding := if b then a.b else a.a
/-- Replace a winding. -/
def Axis.setWind (a : Axis) (b : Bool) (w : Winding) : Axis := if b then { a with b := w } else { a with a := w }

/-- A winding begins an on phase, or the slow decay of a target of 0 (R359). -/
def Axis.onPhase (a : Axis) (vfs : Nat) (dc b : Bool) (now : Ts) : Axis :=
  a.setWind b { a.wind b with on := decide (a.code vfs dc b ≠ 0), dir := decide (0 ≤ a.target dc b), off := 0, fast := 0, phaseTs := now }

/-- Time of an action in 10 ns. -/
def tens (t : Ts) : BitVec 50 := BitVec.ofNat 50 (4 * t.toNat)

/-- A moment in 10 ns has come by the end of the present unit of the timestamp. -/
def Dev.come (d : Dev) (t : BitVec 50) : Bool := !(tens d.clk.now + 3 - t).msb

/-! ## Positions (R342) -/

/-- AX0 position of a media position (R342). -/
def Dev.axOf (d : Dev) (m : Int) : Int := d.mot.baseX + ((m - d.mot.baseM) * (d.mot.l0 : Int) + 2097152) / 4194304

/-- Media position by AX0: at rest the position last planned, in motion the nearest 1/64 line (log entry 11). -/
def Dev.mediaPos (d : Dev) : Int :=
  if d.mot.travel == .rest then d.mot.bound
  else d.mot.baseM + ((d.axes.a.pos - d.mot.baseX) * 8388608 + (d.mot.l0 : Int)) / (2 * max (d.mot.l0 : Int) 1)

/-- Steps of a plan that are computed for the time until e after its first segment began. -/
def segSteps : List Seg → Nat → Int
  | [], _ => 0
  | s :: rest, e =>
    let n : Int := if s.len ≤ e then s.dpos else min (s.dpos : Int) (max 0 (((s.frac : Int) + s.pos e) / 65536))
    (if s.fwd then n else -n) + (if s.len ≤ e then segSteps rest (e - s.len) else 0)

/-- AX0's position at a time in 10 ns: by the step times of its trajectory (R339, R375). -/
def Dev.axisAt (d : Dev) (t : BitVec 50) : Int :=
  let a := d.axes.a
  match a.segs with
  | [] => a.pos
  | s :: _ =>
    let e := t - a.segTs
    (if s.fwd then a.pos - a.done else a.pos + a.done) + segSteps a.segs (if e.msb then 0 else e.toNat)

/-- Media position by AX0 at a time in 10 ns. -/
def Dev.mediaPosAt (d : Dev) (t : BitVec 50) : Int :=
  if d.mot.travel == .rest then d.mot.bound
  else d.mot.baseM + ((d.axisAt t - d.mot.baseX) * 8388608 + (d.mot.l0 : Int)) / (2 * max (d.mot.l0 : Int) 1)

/-- Media position by the encoder (R375, log entry 11). -/
def Dev.encPos (d : Dev) : Int :=
  d.mot.baseM + ((d.mot.menc - d.mot.lineBase) * 8388608 + (d.mot.cpl : Int)) / (2 * max (d.mot.cpl : Int) 1)

/-- Position of a sensor sample of a time in 10 ns: by AX0 under step and timer ticks, by the MENC count known under encoder ticks
(R375, log entry 137). -/
def Dev.samplePos (d : Dev) (t : BitVec 50) : Int := if d.tickSource = 1 && d.mot.cpl ≠ 0 then d.encPos else d.mediaPosAt t

/-- Set the watermark to the present count (R302). -/
def Dev.setMark (d : Dev) : Dev := { d with mot := { d.mot with mark := d.mot.menc, excursion := false } }

/-- A position under another resolution: divided down at a coarser one, truncating, and kept at a finer one (R357). -/
def regridPos (old new : Nat) (p : Int) : Int := if new < old then p.tdiv (2 ^ (old - new) : Nat) else p

/-- An axis under another resolution: its position, and at a coarser one the next lower phase of the new grid (R357). -/
def Axis.regrid (a : Axis) (us : Nat) : Axis :=
  if a.ustep = us then a else
  { a with
    ustep := us
    pos := regridPos a.ustep us a.pos
    phase := if us < a.ustep then
        let g := 64 / 2 ^ us
        BitVec.ofNat 8 ((a.phase.toNat + 256 - 32 % g) / g * g + 32 % g)
      else a.phase }

/-- The positions of AX0 that are kept beside it, under another resolution: the base keeps its distance (R342), the checks of
R387 their units. -/
def Dev.regrid0 (d : Dev) (us : Nat) : Dev :=
  let a := d.axes.a
  { d with mot := { d.mot with
      baseX := d.mot.baseX + (regridPos a.ustep us a.pos - a.pos), cmdHist := d.mot.cmdHist.map (regridPos a.ustep us) } }

/-- Take the phase, position and levels of an axis entry into use (R334, R357, R363). -/
def energise (x : Fin 4) (e : List Byte) (d : Dev) : Dev :=
  let d := if x = 0 then d.regrid0 (eUstep e) else d
  d.onAxis x fun a =>
    let was := a.energised
    let a := a.regrid (eUstep e)
    let a := { a with
      entry := e, energised := true, released := false, level := eRun e, moving := true, low := 0
      readyTs := if was then a.readyTs else some (d.at_ (2 * ms))
      sinceFull := 0, fullSteps := 0, fullTs := d.clk.now, moveTs := if a.moving then a.moveTs else d.clk.now }
    if was then a else
    (a.onPhase d.motorVfs (d.dcAxis x) false d.clk.now).onPhase d.motorVfs (d.dcAxis x) true d.clk.now

/-- Whether a ribbon axis is engaged by an entry (R332). -/
def engaged (e : List Byte) : Bool := eRatioS e != 0

/-- Whether some axis the media group needs is released or not energised yet (R363). -/
def Dev.needsEnergising (d : Dev) (m : List Byte) : Bool :=
  !d.axes.a.energised || (engaged (mAxis m 1) && !d.axes.b.energised) || (engaged (mAxis m 2) && !d.axes.c.energised)

/-- The time before the group's first step: 2 ms where an axis is still to be energised (R363). -/
def Dev.energiseWait (d : Dev) (m : List Byte) : Nat := if d.needsEnergising m then 2 * ms else 0

/-- Energise the group's axes at run_level (R363). -/
def Dev.energiseGroup (d : Dev) (m : List Byte) : Dev :=
  let d := energise 0 (mAxis m 0) d
  let d := if engaged (mAxis m 1) then energise 1 (mAxis m 1) d else d
  if engaged (mAxis m 2) then energise 2 (mAxis m 2) d else d

/-- A band's axis block is in use from its first line on; the axes that move keep moving (R334, R353). -/
def Dev.adoptAxes (d : Dev) (m : List Byte) : Dev :=
  let d := if d.axes.a.energised then d.regrid0 (eUstep (mAxis m 0)) else d
  let one (x : Fin 4) (d : Dev) : Dev :=
    d.onAxis x fun a => if !a.energised then a else
      let a := a.regrid (eUstep (mAxis m x.val))
      { a with entry := mAxis m x.val, level := if a.moving then eRun (mAxis m x.val) else a.level }
  one 2 (one 1 (one 0 d))

/-- AX0's next segment starts at a time in 10 ns. -/
def Dev.startSegs (d : Dev) (x : Fin 4) (t : BitVec 50) : Dev := d.onAxis x fun a => { a with segTs := t, done := 0, lastU := 0 }

/-- The group starts from rest under a media section and a ladder: a new base, levels and phases (R342). Its travel starts
now, or where its axes had to be energised 2 ms after that (R363). -/
def Dev.startGroup (d : Dev) (m : List Byte) (l : Ladder) (fwd : Bool) (rate : Nat) : Dev :=
  let start := match d.axes.a.readyTs with
    | some t => if atOrAfter d.clk.now t then d.clk.now else t
    | none => d.at_ (d.energiseWait m)
  let d := (d.energiseGroup m).startSegs 0 (tens start)
  { d with
    line.planned := d.clk.now
    mot := { d.mot with
      baseM := d.mot.bound, baseX := d.axes.a.pos, l0 := eRatio (mAxis m 0),
      ladder := l, per := 0, vEnd := 0, travel := .planned,
      fwd := fwd, maxRate := rate, cpl := mCpl m, lineBase := d.mot.menc, target := none, stopAbandon := none,
      stopFrom := (0, 0), endTs := start, dues := [] } }

/-- Append one line of travel of dist 1/64 line with a committed period, ending at rest or not: the Hermite
segment of R343 and R344. -/
def Dev.addLine (d : Dev) (p dist : Nat) (last tick : Bool) : Dev :=
  let g := d.mot
  let m1 := if g.fwd then g.bound + dist else g.bound - dist
  let dpos := (d.axOf m1 - d.axOf g.bound).natAbs
  let rest := g.per == 0
  let l := g.ladder
  let T :=
    if last then
      (if rest then max p (ceilDiv (3 * l.per (min (l.A 1) (l.D 1)) * dpos * 65536) (2 * max g.l0 1))
       else ceilDiv (2 * dpos * 400000000) (max g.vEnd 1))
    else p
  let vE := if last then 0 else dpos * 1600000000 / (4 * max T 1)
  let v0 := if rest then 0 else if last then g.vEnd else min g.vEnd (3 * vE)
  let seg : Seg := { dpos := dpos, t := 4 * T, v0 := v0, vEnd := vE, fwd := g.fwd, tick := tick }
  let d := if dpos = 0 then d else d.onAxis 0 fun a => { a with segs := a.segs ++ [seg] }
  let ends := g.endTs + BitVec.ofNat 48 T
  { d with mot := { d.mot with bound := m1, per := if last then 0 else T, vEnd := vE, endTs := ends, dues := if tick && d.line.band.isNone then g.dues ++ [ends] else g.dues } }

/-- Greatest speed at a boundary with rem 1/64 line left to rest: the D rung of the whole lines that remain; for
less than a line the uniform deceleration within the first rung (R347, R348, log entry 12). -/
def Ladder.cap (l : Ladder) (rem : Nat) : Nat :=
  if 64 ≤ rem then l.D (rem / 64) else isqrt (l.D 1 * l.D 1 * rem / 64)

/-- Speed of one line per p in 1/16 leader microstep/s. -/
def Ladder.speed (l : Ladder) (p : Nat) : Nat := l.lead * 400000000 / (2 ^ 32 * max p 1)

/-- Plan one more line of a move that ends at rest on a goal: the governor's period from P_floor, P_rate and the
ramp table alone (R312). The deceleration to the goal begins with the line that would else leave too little to stop in. From
there on the square of the speed falls evenly over the distance that was left, as R313 has it (R348). -/
def Dev.planToward (d : Dev) (goal : Int) (ticks : Bool) : Dev :=
  let g := d.mot
  let l := g.ladder
  let R := if g.fwd then (goal - g.bound).toNat else (g.bound - goal).toNat
  if R = 0 then d else
  let dist := min R 64
  let rem := R - dist
  let stops := g.per ≠ 0 && (g.stopFrom.2 ≠ 0 || (rem ≠ 0 && g.per < l.per (l.cap rem)))
  let from_ := if !stops then (0, 0) else if g.stopFrom.2 ≠ 0 then g.stopFrom else (l.speed g.per, R)
  let p := max (l.pAcc g.per) (max 1250 (if g.maxRate = 0 then 0 else pRate g.maxRate))
  let p := if rem = 0 then p else if stops then l.per (min (l.cap rem) (isqrt (from_.1 * from_.1 * rem / max from_.2 1)))
    else max p (l.per (l.cap rem))
  { d with mot.stopFrom := from_ }.addLine p dist (rem == 0) (ticks && dist == 64 && g.fwd)

/-- Plan one more line of a deceleration along the D rungs (R315, R351). -/
def Dev.planStop (d : Dev) (ticks : Bool) : Dev :=
  let g := d.mot
  if g.per = 0 then d else
  let n := g.ladder.nstop g.per
  if n ≤ 1 then d.addLine g.per 64 true (ticks && g.fwd)
  else d.addLine (g.ladder.per (g.ladder.D (n - 1))) 64 false (ticks && g.fwd)

/-- Whether the group, moving in its direction, can come to rest on a goal without decelerating more steeply than
the ladder allows (R350). -/
def Dev.canReach (d : Dev) (goal : Int) : Bool :=
  let g := d.mot
  let ahead := if g.fwd then goal - g.bound else g.bound - goal
  if ahead < 0 then false
  else if g.per = 0 then true
  else
    let n := g.ladder.nstop g.per
    if ahead < 64 then g.ladder.per (g.ladder.cap ahead.toNat) ≤ g.per else g.ladder.D (n - 1) ≤ g.ladder.cap (ahead.toNat - 64)

/-- Whether ticks are raised by the travel of the record under way: forward travel of FEED, SEEK_MARK,
LEARN_MEDIA and the advance of a CUT (R295). -/
def Dev.moveTicks (d : Dev) : Bool := d.mot.fwd && (d.media.move.isSome || d.media.cut.isSome) && d.mot.travel != .returning

/-- Keep the line under way and the next one planned while a record, a return or a deceleration moves the group
(R343, R348). -/
def Dev.refill (d : Dev) : Nat → Dev
  | 0 => d
  | n + 1 =>
    if 2 ≤ d.axes.a.segs.length then d else
    match d.mot.travel with
    | .rest => d
    | .stopping => if d.mot.per = 0 then d else (d.planStop d.moveTicks).refill n
    | .planned | .returning =>
      match d.mot.target with
      | some t => if t = d.mot.bound then d else (d.planToward t d.moveTicks).refill n
      | none => d

/-- Start a move of the group from rest to a goal; the first step comes 2 ms after an energising (R363). -/
def Dev.startMove (d : Dev) (m : List Byte) (l : Ladder) (goal : Int) (rate : Nat) : Dev :=
  let fwd := decide (d.mot.bound ≤ goal)
  let wait := d.energiseWait m
  let d := d.startGroup m l fwd rate
  let d := { d with mot := { d.mot with target := some goal, nextB := if fwd then some (d.mot.bound + 64) else none } }
  let d := d.refill 2
  { d with line.planned := d.at_ (wait + ((d.axes.a.segs.head?.map (·.t)).getD 0) / 4) }

/-- Give the moving group a new rest position (R349 to R351). -/
def Dev.retarget (d : Dev) (goal : Int) : Dev :=
  if d.canReach goal then { d with mot := { d.mot with target := some goal, stopFrom := (0, 0) } }.refill 2
  else { d with mot := { d.mot with travel := .stopping, superseded := some goal, target := none } }.refill 2

/-- The media decelerates along the D rungs to rest; back names the boundary to return to (R315). A return under way
goes on, unless nothing is to be returned to any more (R12). Timer ticks under a band move nothing (R629). -/
def Dev.stopMedia (d : Dev) (back : Option Int) : Dev :=
  match d.mot.travel, back with
  | .rest, _ => d
  | .returning, some _ => d
  | _, _ => { d with mot := { d.mot with travel := .stopping, target := none, returnTo := back, superseded := none } }.refill 2

/-- Start the return from rest to a boundary, using the table's rates (R315, R351). -/
def Dev.startReturn (d : Dev) (goal : Int) : Dev :=
  let g := d.mot
  let d := { d with mot := { g with
    baseM := g.bound, baseX := d.axes.a.pos, lineBase := g.menc, per := 0, vEnd := 0, travel := .returning,
    fwd := decide (g.bound ≤ goal), maxRate := 0, target := some goal, returnTo := none, superseded := none, nextB := none,
    stopFrom := (0, 0), endTs := d.clk.now, dues := [] } }
  let go (x : Fin 4) (d : Dev) : Dev := if x = 0 || engaged (d.axes.get x).entry then energise x (d.axes.get x).entry d else d
  ((go 2 (go 1 (go 0 d))).startSegs 0 (tens d.clk.now)).refill 2

/-- Phase steps of one microstep (R357). -/
def phaseStep (a : Axis) : BitVec 8 := BitVec.ofNat 8 (64 / 2 ^ a.ustep)

/-- Position of AX0's trajectory now, in 1/65,536 microstep (R341). -/
def Dev.traceNow (d : Dev) : Int :=
  let a := d.axes.a
  match a.segs with
  | [] => a.pos * 65536
  | s :: _ =>
    let e := tens d.clk.now + 3 - a.segTs
    let x := s.pos (if e.msb then 0 else min e.toNat s.len)
    if s.fwd then (a.pos - a.done) * 65536 + x else (a.pos + a.done) * 65536 - x

/-- One microstep of an axis: position and phase (R357); INVERT exchanges the senses of the phase. -/
def Axis.move1 (a : Axis) (fwd : Bool) : Axis :=
  { a with pos := if fwd then a.pos + 1 else a.pos - 1, fwd := fwd,
           phase := if fwd != eInvert a.entry then a.phase + phaseStep a else a.phase - phaseStep a }

/-- Stop every axis at once, its gates low, its plan dropped: logic that needs no clock (R507, R513). -/
def Dev.axesOff (d : Dev) : Dev :=
  let d := { d with axes := d.axes.mapIdx fun _ a =>
    { a with energised := false, moving := false, segs := [], done := 0, lastU := 0, held := true,
             a := { a.a with on := false }, b := { a.b with on := false } } }
  { d with mot := { d.mot with travel := .rest, per := 0, vEnd := 0, target := none, returnTo := none, superseded := none,
                               tickDue := none, nextB := none, auxTarget := none, auxBrake := false } }

end Sys2Proof.Machine
end

