-- ==== Sys2Proof/Machine/Trace.lean ====
section
/-! DEFINITION. The trajectory of a stepper aux axis: parts of the segments of its ramp table and a cruise between them
(R355). -/

namespace Sys2Proof.Machine

/-- Velocity u into a segment of a table; at its end the one it is given. -/
def RampSeg.vel (s : RampSeg) (u : Nat) : Nat := if u = s.dt then s.v1 else (segVel s.dt s.dpos s.v0 s.v1 u).toNat

/-- The u at which the velocity of a segment turns, truncated: between its ends the velocity rises on one side of it and falls
on the other. -/
def RampSeg.turn (s : RampSeg) : Nat :=
  let (c3, c2, _) := cubic s.dt (s.dpos * 65536) s.v0 s.v1
  if c3 = 0 then s.dt
  else if 0 < c3 then (clampI 0 s.dt (-c2 * s.dt / (3 * c3))).toNat
  else (clampI 0 s.dt (c2 * s.dt / (-3 * c3))).toNat

/-- The least u of a segment at which the velocity is at or below v, none where it stays above. -/
def RampSeg.firstSlow (s : RampSeg) (v : Nat) : Option Nat :=
  let slow (u : Nat) : Bool := decide (s.vel u ≤ v)
  let t := s.turn
  let t1 := min (t + 1) s.dt
  if slow 0 then some 0
  else if slow t then some (halve slow 40 0 t)
  else if slow t1 then some t1
  else if slow s.dt then some (halve slow 40 t1 s.dt)
  else if slow (s.dt - 1) then some (halve slow 40 t1 (s.dt - 1))
  else none

/-- Position u into a segment of a table, in 1/65,536 microstep. -/
def RampSeg.pos (s : RampSeg) (u : Nat) : Nat := (segPos s.dt s.dpos s.v0 s.v1 u).toNat

/-- A part of a trajectory: a cubic of a duration and a travel in 1/65,536 microstep with its end velocities, the part of its
time from lo to hi, and the travel of that part. -/
structure Leg where
  t : Nat
  travel : Nat
  v0 : Nat
  v1 : Nat
  lo : Nat
  hi : Nat
  len : Nat
deriving DecidableEq, Repr

/-- The part of a table's segment from lo to hi. -/
def RampSeg.part (s : RampSeg) (lo hi : Nat) : Leg := ⟨s.dt, s.dpos * 65536, s.v0, s.v1, lo, hi, s.pos hi - s.pos lo⟩

/-- The deceleration curve from its first point at or below velocity v to rest. -/
def slowTail (v : Nat) : List RampSeg → List Leg
  | [] => []
  | s :: rest =>
    match s.firstSlow v with
    | some u => s.part u s.dt :: rest.map fun s => s.part 0 s.dt
    | none => slowTail v rest

/-- Travel of the parts of a trajectory. -/
def partsLen (l : List Leg) : Nat := l.foldl (fun n p => n + p.len) 0

/-- The travel that R355 weighs for leaving a segment of the acceleration curve at u: the travel to u, before being that of
the segments before it, and the deceleration from there. -/
def leaveLen (dec : List RampSeg) (before : Nat) (s : RampSeg) (u : Nat) : Nat := before + s.pos u + partsLen (slowTail (s.vel u) dec)

/-- The u of the greatest value of a function that does not exceed a goal, the first such u, among n from u on. -/
def bestFrom (f : Nat → Nat) (goal : Nat) : Nat → Nat → Option (Nat × Nat) → Option (Nat × Nat)
  | 0, _, best => best
  | n + 1, u, best =>
    let x := f u
    bestFrom f goal n (u + 1) (if x ≤ goal && (best.map fun b => decide (b.2 < x)).getD true then some (u, x) else best)

/-- The better of two. -/
def better (a b : Option (Nat × Nat)) : Option (Nat × Nat) :=
  match a, b with
  | none, b => b
  | a, none => a
  | some x, some y => if x.2 < y.2 then some y else some x

/-- The first point from lo to top where a rising function exceeds g, by halving; top + 1 for none. -/
def exceeds (f : Nat → Nat) (g lo top : Nat) : Nat :=
  if g < f lo then lo else if f top ≤ g then top + 1 else halve (fun u => decide (g < f u)) 40 lo top

/-- The same from lo to hi where the function rises but for dips below 8: only what lies within 17 below the goal can be the
greatest, or, where the function jumps over that, within 17 below the value before the jump. -/
def bestRising (f : Nat → Nat) (goal lo hi : Nat) : Option (Nat × Nat) :=
  let e := exceeds f (goal + 8) lo hi
  if e ≤ lo then none else
  let u := exceeds f (min goal (f (e - 1)) - 17) lo (e - 1)
  let near := bestFrom f goal (e - u) u none
  if u ≤ lo || (near.map fun b => decide (goal ≤ b.2 + 8 || f (e - 1) ≤ goal)).getD false then near else
  let w := exceeds f (f (u - 1) - 17) lo (u - 1)
  better (bestFrom f goal (u - w) w none) near

/-- Where to leave one segment: its stretch of rising velocity by halving, that of falling velocity point by point. -/
def leaveSeg (dec : List RampSeg) (goal before : Nat) (s : RampSeg) : Option (Nat × Nat) :=
  let f := leaveLen dec before s
  let t := s.turn
  let part (lo hi : Nat) : Option (Nat × Nat) :=
    if s.vel lo ≤ s.vel hi then bestRising f goal lo hi else bestFrom f goal (hi + 1 - lo) lo none
  better (part 0 t) (part (min (t + 1) s.dt) s.dt)

/-- The point u_a of R355 as the index of a segment and u: the greatest travel that does not exceed the goal, the first of
those equal (log entry 17). before is the travel of the segments before it. -/
def leavePoint (dec : List RampSeg) (goal : Nat) : Nat → Nat → List RampSeg → Option ((Nat × Nat) × Nat)
  | _, _, [] => none
  | i, before, s :: rest =>
    let next := leavePoint dec goal (i + 1) (before + s.dpos * 65536) rest
    match leaveSeg dec goal before s, next with
    | none, n => n
    | some (u, x), none => some ((i, u), x)
    | some (u, x), some n => if x < n.2 then some n else some ((i, u), x)

/-- The parts as segments: each takes the steps that its travel reaches; parts that reach none take their time along. -/
def partSegs (fwd : Bool) : Nat → List Leg → List Seg
  | _, [] => []
  | x, p :: rest =>
    { dpos := (x + p.len) / 65536 - x / 65536, t := p.t, v0 := p.v0, vEnd := p.v1, fwd := fwd, travel := p.travel, lo := p.lo,
      len := p.hi - p.lo, frac := x % 65536 } :: partSegs fwd (x + p.len) rest

/-- The parts of the acceleration curve up to u of its segment i. -/
def fastHead (acc : List RampSeg) (i u : Nat) : List Leg :=
  (acc.take i).map (fun s => s.part 0 s.dt) ++ (match acc[i]? with | some s => [s.part 0 u] | none => [])

/-- The plan of a move of s microsteps under a ramp table (R355). -/
def auxPlan (body : List Byte) (s : Nat) (fwd : Bool) : List Seg :=
  let segs := rampSegs body
  let acc := segs.filter fun s => !s.decel
  let dec := segs.filter fun s => s.decel
  let goal := s * 65536
  match leavePoint dec goal 0 0 acc with
  | none => []
  | some ((i, u), x) =>
    let v := match acc[i]? with | some a => a.vel u | none => 0
    let mid := goal - x
    let t := ceilDiv (mid * 1600000000) (65536 * max v 1)
    let cruise : List Leg := if mid = 0 then [] else [⟨t, mid, v, v, 0, t, mid⟩]
    (partSegs fwd 0 ((fastHead acc i u ++ cruise ++ slowTail v dec).filter fun p => p.lo < p.hi))

/-- The deceleration from a velocity by the table's curve, from the microstep just made (R355, R536). -/
def auxStop (body : List Byte) (v : Nat) (fwd : Bool) : List Seg :=
  partSegs fwd 0 ((slowTail v ((rampSegs body).filter fun s => s.decel)).filter fun p => p.lo < p.hi)

/-- Segments whose steps are all made are left behind, each handing its time on; at the end of the last the travel is over. -/
def Axis.nextSegs : Nat → Axis → Axis
  | 0, a => a
  | n + 1, a =>
    match a.segs with
    | [] => a
    | s :: rest =>
      if a.done < s.dpos then a
      else Axis.nextSegs n { a with segs := rest, done := 0, lastU := 0, segTs := a.segTs + BitVec.ofNat 50 s.len }

end Sys2Proof.Machine
end

