-- ==== Sys2Proof/Machine/DotMap.lean ====
section
/-! DEFINITION. The band stream, pixels and levels, segment maps, dead-dot tables and the demand estimator (05),
and the reading of slot plan sections (R207, R208). -/

namespace Sys2Proof.Machine

/-! ## The stream (R164 to R172) -/

/-- Level of a pixel value (R164). -/
def levelOf (bits v : Nat) : Nat := if bits = 1 then 15 * v else if bits = 2 then 5 * v else v

/-- Bytes of one row (R166). -/
def rowBytes (dots bits : Nat) : Nat := ceilDiv (dots * bits) 8

/-- The levels of a row, raster index 0 first (R165). -/
def rowLevels (bits dots : Nat) (row : List Byte) : List Nat :=
  let per := 8 / bits
  let all := (row.map fun b => (List.range per).map fun i => levelOf bits (b.toNat / 2 ^ (bits * i) % 2 ^ bits)).flatten
  all.take dots

/-- The rows of a line in order, as (port, plane), given the faces of the ports (R168). -/
def lineParts (mask mode : Nat) (back : Quad Bool) : List (Fin 4 × Nat) :=
  let ps := portsOf mask
  match mode with
  | 1 => ps.map (fun p => (p, 0)) ++ ps.map fun p => (p, 1)
  | 2 => ((ps.filter fun p => !back.get p).map fun p => (p, 0)) ++ (ps.filter fun p => back.get p).map fun p => (p, 0)
  | _ => ps.map fun p => (p, 0)

/-- line_bytes (R168). -/
def lineBytes (dots : Quad Nat) (mask mode bits : Nat) : Nat :=
  let row := (portsOf mask).foldl (fun n p => n + rowBytes (dots.get p) bits) 0
  if mode = 1 then 2 * row else row

/-- The passed block with a block_seq. -/
def Win.block (w : Win) (seq : W32) : Option Blk := w.passed.find? fun b => b.seq == seq

/-- n bytes of a stream from an offset counted from the block seq; none when a block is missing or is one of
stop (R167, R172, R174). -/
def Dev.stream (d : Dev) (stop : List W32) : Nat → W32 → Nat → Nat → Option (List Byte)
  | 0, _, _, _ => none
  | f + 1, seq, off, n =>
    if n = 0 then some [] else
    if stop.contains seq then none else
    match d.win.block seq with
    | none => none
    | some b =>
      if b.len ≤ off then d.stream stop f (seq + 1) (off - b.len) n
      else
        let k := min n (b.len - off)
        match d.stream stop f (seq + 1) 0 (n - k) with
        | none => none
        | some rest => some (d.rams (poolBlock b.pos + 0x10 + off) k ++ rest)

/-- Whether n bytes of a stream from an offset are there (R172). -/
def Dev.streamThere (d : Dev) (stop : List W32) : Nat → W32 → Nat → Nat → Bool
  | 0, _, _, _ => false
  | f + 1, seq, off, n =>
    if n = 0 then true else
    if stop.contains seq then false else
    match d.win.block seq with
    | none => false
    | some b =>
      if b.len ≤ off then d.streamThere stop f (seq + 1) (off - b.len) n
      else d.streamThere stop f (seq + 1) 0 (n - min n (b.len - off))

/-! ## Segment maps (R175 to R179) -/

/-- first_dot, dot_count, lane and direction of a segment word (R175). -/
def wFirst (w : W32) : Nat := bits w.toNat 11 0
/-- dot_count. -/
def wCount (w : W32) : Nat := bits w.toNat 24 12
/-- lane. -/
def wLane (w : W32) : Nat := bits w.toNat 28 25
/-- descending. -/
def wDesc (w : W32) : Bool := bit w.toNat 29

/-- The 32-bit words of a list of bytes from an offset. -/
def words (bs : List Byte) (off : Nat) : Nat → List W32
  | 0 => []
  | n + 1 => BitVec.ofNat 32 (le bs off 4) :: words bs (off + 4) n

/-- Whether a segment word breaks the ranges of R175 and R177 for a port of D dots and L lanes: the bits of the
field at fault name no offset below the word. -/
def segBad (D L : Nat) (w : W32) : Bool :=
  wCount w == 0 || 4096 < wCount w || L ≤ wLane w || D < wFirst w + wCount w

/-- Whether segments assign every dot exactly once and every lane D / L dots (R177). -/
def covers (D L : Nat) (ws : List W32) : Bool :=
  let total := ws.foldl (fun n w => n + wCount w) 0
  let disjoint := (ws.zipIdx).all fun (w, i) => (ws.drop (i + 1)).all fun v =>
    wFirst w + wCount w ≤ wFirst v || wFirst v + wCount v ≤ wFirst w
  total == D && disjoint && (List.range L).all fun l =>
    (ws.filter fun w => wLane w == l).foldl (fun n w => n + wCount w) 0 * L == D

/-- The default map without a card map: lane l takes dots l D / L onward, ascending (R179). -/
def plainMap (D L : Nat) : List W32 :=
  (List.range L).map fun l => BitVec.ofNat 32 (l * D / L + (D / L) * 4096 + l * 2 ^ 25)

/-- The map a port uses for a band: its section when in force, else its default map (R179, R180). -/
def Dev.mapFor (d : Dev) (p : Fin 4) : SegMap :=
  let b := d.pers.ports.get p
  if d.secOn (24 + p.val) then
    let m := d.secRaw (24 + p.val)
    { segs := words m 0x20 (min (le m 0x10 1) 32), back := le m 0x11 1 == 1, reversed := le m 0x12 1 == 1 }
  else
    let back := p.val % 2 == 1
    match d.card p with
    | some c => if b.geomSrc = 1 && le c 0x24 1 ≠ 0 then { segs := words c 0x40 (le c 0x24 1), back := back }
                else { segs := plainMap b.dots b.lanes, back := back }
    | none => { segs := plainMap b.dots b.lanes, back := back }

/-- The maps of every port at a BAND's admission, which the BAND keeps (R179, R180). -/
def Dev.mapsFor (d : Dev) : Quad SegMap := (Quad.all ()).mapIdx fun p _ => d.mapFor p

/-- The dots of a segment in shift order (R176). -/
def segDots (w : W32) : List Nat :=
  let l := (List.range (wCount w)).map fun i => wFirst w + i
  if wDesc w then l.reverse else l

/-- The sequence of a lane (R176). -/
def laneSeq (m : SegMap) (lane : Nat) : List Nat := ((m.segs.filter fun w => wLane w == lane).map segDots).flatten

/-! ## Dead dots (R181 to R188) -/

/-- dot of a dead-dot entry (R182). -/
def eDot (w : W32) : Nat := bits w.toNat 11 0
/-- mode. -/
def eMode (w : W32) : Nat := bits w.toNat 13 12
/-- gain. -/
def eGain (w : W32) : Nat := bits w.toNat 23 16

/-- Merge entries into a table of at most 96: an entry that names a dot already in the table replaces its mode and
gain when repl is set; answers the table and the number of entries dropped (R183). -/
def mergeInto (repl : Bool) : List W32 → List W32 × Nat → List W32 × Nat
  | [], t => t
  | e :: es, (t, n) =>
    if t.any (fun x => eDot x == eDot e) then
      mergeInto repl es (if repl then t.map (fun x => if eDot x = eDot e then e else x) else t, n)
    else if t.length < 96 then mergeInto repl es (t ++ [e], n) else mergeInto repl es (t, n + 1)

/-- The entries of a card that the device uses: factory entries, none when dead_crc fails or they were left
unread (R287). -/
def Dev.factoryDead (d : Dev) (p : Fin 4) : List W32 :=
  match d.card p with
  | none => []
  | some c =>
    let n := le c 0x25 1
    if n = 0 || (d.slow && 16 < n) then []
    else if le c 0x38 4 == (crc32c ((c.drop 0xC0).take (4 * n))).toNat then words c 0xC0 n else []

/-- The merged table of a port and the number of entries dropped (R183, R184). -/
def Dev.mergeDead (d : Dev) (p : Fin 4) : List W32 × Nat :=
  let grown := (d.heads.get p).grown.map fun x => BitVec.ofNat 32 (x + 96 * 65536)
  let sec := 20 + p.val
  let adds := if d.secOn sec then let b := d.secBody sec; words b 0 (b.length / 4) else []
  mergeInto true adds (mergeInto false grown (mergeInto false (d.factoryDead p) ([], 0)))

/-- First dot of a run of three consecutive dead dots (R188). -/
def deadRun (t : List W32) : Option Nat :=
  let ds := (t.map eDot).foldl (fun l x => insertNat x l) []
  ds.find? fun x => ds.contains (x + 1) && ds.contains (x + 2)

/-- Merge a port's table and post DEAD_TABLE_FULL and DEAD_RUN where the result is new, for the record at
whose admission or completion it is made (R183, R186, R188; the layout of their detail is log entry 13). -/
def Dev.remerge (d : Dev) (job : Option (W32 × W32)) (p : Fin 4) : List W32 × Dev :=
  let (t, n) := d.mergeDead p
  if (d.heads.get p).deadPrev = some (t, n) then (t, d) else
  let d := d.onHead p fun h => { h with deadPrev := some (t, n) }
  let ev (c : W16) (v : Nat) : Rise :=
    { code := c, sev := some .note, lvl := codeLvl d c, port := p.val, ports := 2 ^ p.val, job := job,
      detail := [BitVec.ofNat 8 p.val, 0] ++ leBytes 2 v }
  let post (d : Dev) (r : Rise) : Dev := if d.sys.ready then d.report r else { d with sys.early := d.sys.early ++ [r] }
  let d := if n = 0 then d else post d (ev cDeadTableFull n)
  (t, match deadRun t with | none => d | some x => post d (ev cDeadRun x))

/-- Share that dot x receives on one plane from dead neighbours (R187, R188). -/
def shareFor (dead : List W32) (target : Nat → Nat) (x : Nat) : Nat :=
  let from_ (y : Nat) (mode : Nat) : Nat :=
    match dead.find? fun e => eDot e == y with
    | some e => if eMode e == 0 || eMode e == mode then eGain e * target y / 256 else 0
    | none => 0
  -- the dead dot below hands to its upper neighbour (mode 2), the one above to its lower (mode 1)
  (if x = 0 then 0 else from_ (x - 1) 2) + from_ (x + 1) 1

/-- Target sums of one plane, dot 0 first: the tone-curve entry of the dot's level plus the shares it receives, 0
for a dead dot (R187, R211, R213). -/
def planeTargets (dead : List W32) (tone levels : List Nat) : List Nat :=
  let own (l : Nat) : Nat := if l = 0 then 0 else tone.getD l 0
  let es := levels.map own
  if dead.isEmpty then es else
  (es.zipIdx).map fun (e, x) =>
    if dead.any (fun w => eDot w == x) then 0
    else if dead.any (fun w => eDot w == x + 1 || eDot w + 1 == x) then e + shareFor dead (fun y => es.getD y 0) x
    else e

/-! ## Slot plans (R207, R208) -/

/-- 16-bit entries of a structure. -/
def halves (bs : List Byte) (off : Nat) : Nat → List Nat
  | 0 => []
  | n + 1 => le bs off 2 :: halves bs (off + 2) n

/-- 4-bit entries of a field of 8 bytes. -/
def nibbles (bs : List Byte) (off : Nat) : List Nat := (List.range 16).map fun i => le bs (off + i / 2) 1 / 16 ^ (i % 2) % 16

/-- A slot plan read from its section (R207). -/
def planOf (m : List Byte) : Plan :=
  { s := le m 0x10 1, carryShift := le m 0x11 1, subShift := le m 0x12 1, lateral := le m 0x13 1,
    heatGain := le m 0x14 2, subGain := le m 0x16 2, rDefault := le m 0x18 2, xAct := le m 0x1A 2,
    tRef := signed 12 (le m 0x1C 2), dur := (halves m 0x20 16).map (· % 4096), greedy := nibbles m 0x40,
    class0 := (nibbles m 0x48).map (· % 8), class1 := (nibbles m 0x50).map (· % 8), mask := halves m 0x58 8,
    decay := (halves m 0x68 64).map (· % 4096) }

/-- First of a list of checks that fails, by its offset. -/
def firstBad : List (Bool × Nat) → Option Nat
  | [] => none
  | (b, o) :: rest => if b then some o else firstBad rest

/-- R208 with R628: the offset in the section of the first thing wrong with a slot plan; two says that
class_table_1 is in use. -/
def planBad (m : List Byte) (two : Bool) : Option Nat :=
  let p := planOf m
  let rng (off n lo hi : Nat) : Bool × Nat := (le m off n < lo || hi < le m off n, off)
  let t := le m 0x1C 2
  match firstBad ([(le m 4 2 ≠ 216, 4), rng 0x10 1 1 16, rng 0x11 1 0 4, rng 0x12 1 0 8, rng 0x13 1 0 63,
      rng 0x14 2 1 4095, rng 0x16 2 0 2047, rng 0x18 2 1 4095, rng 0x1A 2 513 4095,
      (unsigned 16 (signed 12 t) ≠ t, 0x1C)]) with
  | some o => some o
  | none =>
    let durs := (List.range 16).map fun s => ((p.dur.getD s 0 == 0) == decide (s < p.s), 0x20 + 2 * s)
    let greedy : List (Bool × Nat) := (List.range p.s).map fun i =>
      let e := p.greedy.getD i 0
      (p.s ≤ e || (p.greedy.take i).contains e, 0x40 + i / 2)
    let cls (tab : List Nat) (off : Nat) : List (Bool × Nat) := (List.range 16).map fun L =>
      let mk := p.mask.getD (tab.getD L 0) 0
      (mk == 0 || 2 ^ p.s ≤ mk, off + L / 2)
    let dec : List (Bool × Nat) := (List.range 63).map fun i => (decide <| p.decay.getD i 0 < p.decay.getD (i + 1) 0, 0x68 + 2 * (i + 1))
    firstBad (durs ++ greedy ++ cls p.class0 0x48 ++ (if two then cls p.class1 0x50 else []) ++ dec)

/-! ## Head geometry -/

/-- First dot of each strobe group of a port: a valid card's group map, else equal groups (R260). -/
def Dev.groupStarts (d : Dev) (p : Fin 4) : List Nat :=
  let b := d.pers.ports.get p
  let plain := (List.range b.strobes).map fun g => g * b.dots / max b.strobes 1
  match d.card p with
  | some c => (halves c 0x28 b.strobes).map (· % 4096)
  | none => plain

/-- Sum the values of each group. -/
def groupSums (starts : List Nat) (vs : List Nat) : List Nat :=
  (starts.zipIdx).map fun (a, g) =>
    ((vs.drop a).take ((starts.getD (g + 1) vs.length) - a)).foldl (· + ·) 0

/-- Sums of consecutive runs of 64 values. -/
def blockSums (vs : List Nat) : List Nat :=
  (List.range (ceilDiv vs.length 64)).map fun j => ((vs.drop (64 * j)).take 64).foldl (· + ·) 0

/-! ## The estimator (R189, R190) -/

/-- Index of the first greatest element. -/
def argMax (l : List Nat) : Nat × Nat :=
  (l.zipIdx).foldl (fun (b : Nat × Nat) (v, j) => if b.1 < v then (v, j) else b) (0, 0)

/-- Demand figures of one port from the target sums of its planes (R189, R190). -/
def demandOf (ceiling : Nat) (starts : List Nat) (planes : List (List Nat)) : Demand :=
  let est := match planes with
    | [a, b] => List.zipWith (fun x y => min (x + y) ceiling) a b
    | [a] => a.map fun x => min x ceiling
    | _ => []
  let on := est.map fun e => if e = 0 then 0 else 1
  let (pk, j) := argMax (blockSums est)
  { energy := est.foldl (· + ·) 0, peak := pk, block := j, groups := groupSums starts on, on := on.foldl (· + ·) 0 }

end Sys2Proof.Machine
end

