-- ==== Sys2Proof/Machine/Press.lean ====
section
/-! DEFINITION. The press: one line of one port from stored state to slot words and new state (06). -/

namespace Sys2Proof.Machine

/-! ## Dot memory (R196, R198) -/

/-- state of a dot-memory word. -/
def wState (w : BitVec 32) : Nat := bits w.toNat 11 0
/-- carry. -/
def wCarry (w : BitVec 32) : Int := signed 8 (bits w.toNat 19 12)
/-- resistance. -/
def wRes (w : BitVec 32) : Nat := bits w.toNat 31 20
/-- A dot-memory word from its fields. -/
def mkWord (state : Nat) (carry : Int) (res : Nat) : BitVec 32 :=
  BitVec.ofNat 32 (state % 4096 + 4096 * unsigned 8 carry + 2 ^ 20 * (res % 4096))

/-- A sparse list of dot words as n words. -/
def expandDots (m : List (Nat × BitVec 32)) : Nat → Nat → List (BitVec 32)
  | 0, _ => []
  | n + 1, i =>
    match m with
    | [] => 0 :: expandDots [] n (i + 1)
    | (j, w) :: rest => if i = j then w :: expandDots rest n (i + 1) else 0 :: expandDots ((j, w) :: rest) n (i + 1)

/-- The words that are not 0, with their dots. -/
def compactDots (ws : List (BitVec 32)) : List (Nat × BitVec 32) :=
  (ws.zipIdx).filterMap fun (w, i) => if w = 0 then none else some (i, w)

/-- The dot-memory words of a port. -/
def Dev.dotWords (d : Dev) (p : Fin 4) : List (BitVec 32) := expandDots (d.heads.get p).dots (d.pers.ports.get p).dots 0

/-- The resistance that stands in for an unmeasured dot (R197). -/
def Dev.rNominal (d : Dev) (p : Fin 4) (plan : Plan) : Nat :=
  match d.card p with | some c => le c 0x14 2 | none => plan.rDefault

/-! ## Arithmetic of one line -/

/-- retention (R217). -/
def retention (T : List Nat) (a : Nat) : Nat :=
  if a < 512 then 4096 else
  let e := bitlen a - 1
  if 25 ≤ e then T.getD 63 0 else
  let q := a / 2 ^ (e - 2) % 4
  let f := a / 2 ^ (e - 6) % 16
  let i := 4 * (e - 9) + q
  if i = 63 then T.getD 63 0 else T.getD i 0 - (T.getD i 0 - T.getD (i + 1) 0) * f / 16

/-- The decayed state (R218). -/
def decayed (r th : Nat) : Nat := if r = 4096 then th else (th * r + 2048) / 4096

/-- K_m and K_sh of a supply voltage (R225). -/
def kFrom (v : Nat) : Nat → Nat → Nat × Nat
  | 0, sh => (25000 * 2 ^ sh / (v * v), sh)
  | n + 1, sh => let k := 25000 * 2 ^ sh / (v * v); if k < 2048 then kFrom v n (sh + 1) else (k, sh)

/-- K_m and K_sh, v bounded to 500 to 4,095 (R225). -/
def kPair (v : Nat) : Nat × Nat := kFrom (min (max v 500) 4095) 12 10

/-- scale (R226). -/
def scaleE (km ksh E R : Nat) : Nat :=
  let a := E * R
  if a = 0 then 0 else
  let n := bitlen a - 12
  let m := a / 2 ^ n
  min (m * km / 2 ^ (ksh - n)) 4095

/-- The correction factor f of a total excess x (R223). -/
def corrF (q : Nat) (x : Int) : Nat := (clampI 0 4095 (2048 - x * q / 1024)).toNat

/-- Slot selection (R228): remaining slots to try, then rem, ta and sel so far. -/
def selectSlots (dur : List Nat) (mask tmax : Nat) : List Nat → Int → Nat → Nat → Int × Nat × Nat
  | [], rem, ta, sel => (rem, ta, sel)
  | s :: rest, rem, ta, sel =>
    let w := dur.getD s 0
    if mask.testBit s && decide ((w : Int) ≤ 2 * rem) && ta + w ≤ tmax then
      selectSlots dur mask tmax rest (rem - w) (ta + w) (sel + 2 ^ s)
    else selectSlots dur mask tmax rest rem ta sel

/-- What one dot update answers. -/
structure DotOut where
  word : BitVec 32
  sel : Nat := 0
  ea : Nat := 0
  trimmed : Bool := false
  saturated : Bool := false
deriving DecidableEq, Repr

/-- The figures of a port and line that every dot update uses (R222 to R225). -/
structure PortFigs where
  plan : Plan
  ceil : Nat
  q : Nat
  km : Nat
  ksh : Nat
  thx : Int
  rNom : Nat
deriving DecidableEq, Repr

/-- Stages 2 to 7 of a dot that is not dead: lo and hi are the neighbours' decayed states, thd its own, sdec the
block's decayed substrate, et and cls its target and class (R219 to R231). -/
def dotUpdate (g : PortFigs) (w : BitVec 32) (carry : Int) (lo thd hi sdec et cls : Nat) : DotOut :=
  let p := g.plan
  let L : Int := ((p.lateral : Int) * ((lo : Int) + hi - 2 * thd)) / 256
  let thl := (clampI 0 4095 (thd + L)).toNat
  let off : DotOut := { word := mkWord thl 0 (wRes w) }
  if et = 0 then off else
  let R := if wRes w = 0 then g.rNom else wRes w
  let x := clampI (-2048) 2047 (g.thx + (sdec / 16 : Nat) + thl)
  let ec := min (et * corrF g.q x / 2048) 4095
  let ef := min ec g.ceil
  let t := scaleE g.km g.ksh ef R
  let tmax := scaleE g.km g.ksh g.ceil R
  if t = 0 then { off with trimmed := decide (g.ceil < ec) } else
  let rem := max ((t : Int) + carry * (2 ^ p.carryShift : Nat)) 0
  let (rem, ta, sel) := selectSlots p.dur (p.mask.getD cls 0) tmax (p.greedy.take p.s) rem 0 0
  let h : Int := if p.carryShift = 0 then 0 else (2 ^ (p.carryShift - 1) : Nat)
  let c2 := clampI (-128) 127 ((rem + h) / (2 ^ p.carryShift : Nat))
  let ea := min (ef * ta / t) g.ceil
  let heat := ea * p.heatGain / 256
  { word := mkWord (min (thl + heat) 4095) c2 (wRes w), sel := sel, ea := ea,
    trimmed := decide (g.ceil < ec), saturated := decide (4095 < thl + heat) }

/-- What a dot asks for: target and class; dead dots ask for nothing. -/
structure Ask where
  et : Nat
  cls : Nat
deriving DecidableEq, Repr

/-- Target and class of every dot from the planes' target sums and levels (R212 to R214). -/
def asks (classes : List (List Nat)) : List (List Nat) → List (List Nat) → List Ask
  | [t0, t1], [l0, l1] =>
    List.zipWith (fun (a : Nat × Nat) (b : Nat × Nat) =>
      if 0 < a.1 then ⟨min a.1 4095, (classes.getD 0 []).getD a.2 0⟩
      else ⟨min b.1 4095, (classes.getD 1 []).getD b.2 0⟩) (t0.zip l0) (t1.zip l1)
  | t0 :: _, l0 :: _ => List.zipWith (fun t l => ⟨min t 4095, (classes.getD 0 []).getD l 0⟩) t0 l0
  | _, _ => []

/-- The dots of a line one after another: prev is the decayed state of the dot before, none at the head's end
(R219, R220). -/
def runDots (g : PortFigs) (reset : Bool) (sdec : List Nat) : Option Nat → Nat → List (BitVec 32 × Nat) → List Ask → List DotOut
  | prev, i, (w, thd) :: rest, a :: as =>
    let hi := match rest with | (_, t) :: _ => t | [] => thd
    let carry := if reset then 0 else wCarry w
    dotUpdate g w carry (prev.getD thd) thd hi (sdec.getD (i / 64) 0) a.et a.cls ::
      runDots g reset sdec (some thd) (i + 1) rest as
  | _, _, _, _ => []

/-- What the press answers for one port and line. -/
structure PressOut where
  out : PortOut
  trimmed : Bool
  saturated : Option Nat     -- lowest dot
deriving DecidableEq, Repr

/-- One line of one port (R195 to R233). dt is the elapsed time, none when t_last is none (R216). Where several dots
saturate in one line, the answer names the lowest: the spec does not say which (DESIGN CHOICE, log entry 122). -/
def pressPort (plan : Plan) (ceil : Nat) (rNom v : Nat) (th : Int) (dt : Option Nat) (reset : Bool)
    (mem : List (BitVec 32)) (subs : List Nat) (as : List Ask) : PressOut :=
  let last := plan.decay.getD 63 0
  let rd := match dt with | none => last | some a => retention plan.decay a
  let rs := match dt with | none => last | some a => retention plan.decay (a / 2 ^ plan.subShift)
  let (km, ksh) := kPair v
  let g : PortFigs := { plan := plan, ceil := ceil, q := 2097152 / max plan.xAct 1, km := km, ksh := ksh,
                        thx := 2 * (th - plan.tRef), rNom := rNom }
  let nb := ceilDiv mem.length 64
  let sdec := (List.range nb).map fun j => decayed rs (subs.getD j 0)
  let outs := runDots g reset sdec none 0 (mem.map fun w => (w, decayed rd (wState w))) as
  let eb := blockSums (outs.map (·.ea))
  { out := { slots := outs.map (·.sel), words := outs.map (·.word),
             subs := List.zipWith (fun s e => min (s + e / 16 * plan.subGain / 4096) 65535) sdec eb,
             energy := eb.foldl (· + ·) 0 },
    trimmed := outs.any (·.trimmed),
    saturated := ((outs.zipIdx).find? fun o => o.1.saturated).map (·.2) }

/-- Slices in service (R238). -/
def Dev.slicesIn (d : Dev) : Nat := (d.line.slices.toList.filter fun s => !s.fenced && !s.withdrawn).length

/-- Press time of R238 in 1 ns for a number of dots. -/
def pressNs (dots slices : Nat) : Nat := ceilDiv dots (max slices 1) * 5 + 500

end Sys2Proof.Machine
end

