-- ==== Sys2Proof/Machine/Work.lean ====
section
/-! DEFINITION. Admitted records: their waits, their completion, and the ageing ledger (R31 to R36, R148 to R150,
R550, R554). -/

namespace Sys2Proof.Machine

/-! ## The ageing ledger (R554): sparse bytes, 0 where none is listed -/

/-- Put a byte; a byte 0 takes no cell. -/
def ledgerPut1 (m : List Host.Cell) (a : Nat) (v : Byte) : List Host.Cell :=
  match m with
  | [] => if v = 0 then [] else [(a, v)]
  | (b, w) :: rest =>
    if a < b then (if v = 0 then (b, w) :: rest else (a, v) :: (b, w) :: rest)
    else if a = b then (if v = 0 then rest else (a, v) :: rest)
    else (b, w) :: ledgerPut1 rest a v

/-- Put a run of bytes. -/
def ledgerPutAll (m : List Host.Cell) (a : Nat) : List Byte → List Host.Cell
  | [] => m
  | v :: vs => ledgerPutAll (ledgerPut1 m a v) (a + 1) vs

/-- A ledger byte. -/
def ledgerByte (m : List Host.Cell) (a : Nat) : Byte := ((m.find? fun c => c.1 == a).map (·.2)).getD 0

/-- A ledger field of n bytes. -/
def Dev.led (d : Dev) (a n : Nat) : Nat := le ((List.range n).map fun i => ledgerByte d.age.ledger (a + i)) 0 n

/-- Write a ledger field of n bytes, saturating. -/
def Dev.ledSet (d : Dev) (a n v : Nat) : Dev :=
  { d with age := { d.age with ledger := ledgerPutAll d.age.ledger a (leBytes n (sat (8 * n) v)) } }

/-- Add to a ledger field, saturating. -/
def Dev.ledAdd (d : Dev) (a n v : Nat) : Dev := d.ledSet a n (d.led a n + v)

/-- The tally entries in order, with a code counted once more (R554). -/
def tallyInsert (c : Nat) : List (Nat × Nat) → List (Nat × Nat)
  | [] => [(c, 1)]
  | (x, n) :: rest => if c < x then (c, 1) :: (x, n) :: rest else if c = x then (x, min (n + 1) 65535) :: rest
                      else (x, n) :: tallyInsert c rest

/-- Count a FAULT record in the tally of 128 entries in ascending code (R554). -/
def Dev.tally (d : Dev) (c : W16) : Dev :=
  let es := ((List.range 128).map fun i => (d.led (0x300 + 4 * i) 2, d.led (0x302 + 4 * i) 2)).filter fun e => e.1 ≠ 0
  let es := (tallyInsert c.toNat es).take 128
  { d with age := { d.age with
      ledger := ledgerPutAll d.age.ledger 0x300
        ((es.map fun e => leBytes 2 e.1 ++ leBytes 2 e.2).flatten ++ zeros (512 - 4 * es.length)) } }

/-- An axis comes to rest: hold_level at once, and the time it moved goes into the ledger (R361, R554). -/
def Dev.restAxis (d : Dev) (x : Fin 4) : Dev :=
  let a := d.axes.get x
  if !a.moving then d else
  let t := a.moveAcc + since d.clk.now a.moveTs
  let d := d.onAxis x fun a => { a with moving := false, level := eHold a.entry, restTs := d.clk.now, moveAcc := t % 25000000 }
  if t / 25000000 = 0 then d else d.ledAdd (0x1C0 + 32 * x.val + 0x10) 4 (t / 25000000)

/-- Post an ageing event once per reset and subject (R554). -/
def Dev.ageOnce (d : Dev) (code : W16) (subject index value base limit : Nat) : Dev :=
  if d.age.once.contains (code, subject * 256 + index) then d else
  { d with age := { d.age with once := (code, subject * 256 + index) :: d.age.once } }.note code
    ([BitVec.ofNat 8 subject, BitVec.ofNat 8 index] ++ leBytes 4 value ++ leBytes 4 base ++ leBytes 4 limit)

/-! ## Admitted records -/

/-- The admitted record with a sequence. -/
def Dev.adm (d : Dev) (seq : W32) : Option Adm := d.rings.admitted.find? fun a => rSeq a.raw == seq

/-- Change the admitted record with a sequence. -/
def Dev.onAdm (d : Dev) (seq : W32) (f : Adm → Adm) : Dev :=
  { d with rings := { d.rings with admitted := d.rings.admitted.map fun a => if rSeq a.raw = seq then f a else a } }

/-- Divisor of R149 for a wait that begins now: the committed period of a record under way, else P_rate. -/
def Dev.waitDiv (d : Dev) (a : Adm) : Nat :=
  if movesMedia (rType a.raw) then
    let p := if rType a.raw = 0x10 then d.line.period else d.mot.per
    (if a.begun && 0 < p then p else pRate (rRate a.raw))
  else 0

/-- Add a counted delay of n timestamp units: line ticks by the divisor, rounded up, for records reported in line
ticks; units otherwise. The first counted wait gives the reason (R149, R550). -/
def Adm.addLost (a : Adm) (n : Nat) (code : W16) (ref : W32) (div : Nat) : Adm :=
  if n = 0 then a else
  { a with lost := a.lost + (if div = 0 then n else ceilDiv n div),
           reason := if a.reason = 0 then code else a.reason,
           faultCode := if a.faultRef = 0 && ref ≠ 0 then code else a.faultCode,
           faultRef := if a.faultRef = 0 then ref else a.faultRef }

/-- Begin or end the counted wait of a record: why names what holds it, none for nothing. -/
def Dev.setWait (d : Dev) (seq : W32) (why : Option (W16 × W32)) : Dev :=
  d.onAdm seq fun a =>
    match a.wait, why with
    | none, none => a
    | none, some (c, r) => { a with wait := some (d.clk.now, c, r, d.waitDiv a) }
    | some (t, c, r, v), none => { a.addLost (since d.clk.now t) c r v with wait := none }
    | some (t, c, r, v), some (c', r') =>
      -- the code of a SOLENOID's wait is that of the condition that held it last (R426)
      if rType a.raw = 0x40 then { a with wait := some (t, c', r', v) } else { a with wait := some (t, c, r, v) }

/-- How a record ends: outcome, level and origin of the reaction, its own code and the FAULT record behind it, and
the fields of the completion body. own puts the record's own code before a delay's (R381, R396). -/
structure Ending where
  res : Result := .served
  lvl : Lvl := .none
  origin : Nat := 0
  code : W16 := 0
  ref : W32 := 0
  own : Bool := false
  detail : Nat := 0
  aux : Nat := 0
  result : List Byte := []
  flags : Nat := 0
  at_ : Option (Ts × Ts) := none
deriving DecidableEq, Repr

/-- The stack position where the reaction that stops a record began (R42). -/
def Dev.originOf (d : Dev) (lvl : Lvl) : Nat := if lvl == .stack then d.link.origin else d.pos

/-- Code and fault_ref of a completion: the earliest fault whose reaction delayed, damaged or abandoned the record
goes first; otherwise a delay's reason, then the record's own code (R36, R237, R550). A refusal names no FAULT record (R148). -/
def endCode (a : Adm) (delayed : Bool) (e : Ending) : W16 × W32 :=
  if e.own && e.code ≠ 0 then (e.code, if e.ref ≠ 0 then e.ref else a.faultRef)
  else if e.res == .refused then (e.code, 0)
  else if a.faultRef ≠ 0 && (e.ref = 0 || laterSeq e.ref a.faultRef) then (a.faultCode, a.faultRef)
  else if e.ref ≠ 0 then (e.code, e.ref)
  else if e.res == .abandoned then (e.code, 0)
  else if delayed && a.reason ≠ 0 then (a.reason, 0)
  else (e.code, 0)

/-- Complete an admitted record: post its COMPLETE record and take it off the queue (R148). -/
def Dev.close (d : Dev) (seq : W32) (e : Ending) : Dev :=
  let d := d.setWait seq none
  match d.adm seq with
  | none => d
  | some a =>
    -- every completion of a TASTE_HEAD merges the tables of its ports (R186)
    let d := if rType a.raw = 0x61 then d.each4 (portsOf (rMask a.raw)) fun p d => (d.remerge (rJob a.raw) p).2 else d
    let delayed := e.res == .served && decide (0 < a.lost)
    let res := if delayed then .delayed else e.res
    let (code, ref) := endCode a delayed e
    let delay := if movesMedia (rType a.raw) then a.lost else ceilDiv a.lost us
    let flags := e.flags ||| b2n a.trimmed ||| 2 * b2n a.zero
    let (ts, tick) := e.at_.getD (d.clk.now, d.clk.tickNo)
    let failed := res == .refused || res == .abandoned
    let d := d.postComplete a.raw res e.lvl e.origin flags code delay ref e.detail e.aux e.result ts tick
    { d with rings := { d.rings with
        admitted := d.rings.admitted.filter fun b => rSeq b.raw ≠ seq
        failedSince := d.rings.failedSince || failed } }

/-- Refuse an admitted record: nothing of it was done (R30). -/
def Dev.refuse (d : Dev) (seq : W32) (code : W16) (ref : W32) : Dev := d.close seq { res := .refused, code := code, ref := ref }

/-- STARTED of a record whose first step, pulse, read or measurement starts at the time given (R139). -/
def Dev.postStarted (d : Dev) (raw : List Byte) (ts : Ts) : Dev :=
  let job := (rJob raw).getD (0, 0)
  (d.make .never 0x81 (128 * b2n (rJob raw).isSome) (rMask raw) job.2 cStarted ts d.clk.tickNo
    (eventBody 0 .none 0 d.pos job.1 0 0 [])).2

/-- A record begins whose first step comes a time later, that of an energising (R139, R363): STARTED when asked for. -/
def Dev.beginIn (d : Dev) (seq : W32) (wait : Nat) : Dev :=
  let d := d.setWait seq none
  match d.adm seq with
  | none => d
  | some a =>
    let d := d.onAdm seq fun a => { a with begun := true, startDue := if rStart a.raw && wait ≠ 0 then some (d.at_ wait) else none }
    let d := if movesMedia (rType a.raw) then { d with mot.table := rRamp a.raw } else d
    if rStart a.raw && wait = 0 then d.postStarted a.raw d.clk.now else d

/-- A record begins at this moment. -/
def Dev.begin_ (d : Dev) (seq : W32) : Dev := d.beginIn seq 0

/-- A record begins whose first step or pulse still waits: STARTED is owed until then (R139). -/
def Dev.beginOwed (d : Dev) (seq : W32) : Dev :=
  (d.setWait seq none).onAdm seq fun a => { a with begun := true, startOwed := rStart a.raw }

/-- The first step or pulse of such a record comes after a time (R139). -/
def Dev.startsIn (d : Dev) (seq : W32) (wait : Nat) : Dev :=
  match d.adm seq with
  | none => d
  | some a =>
    if !a.startOwed then d else
    let d := d.onAdm seq fun a => { a with startOwed := false, startDue := if wait = 0 then none else some (d.at_ wait) }
    if wait = 0 then d.postStarted a.raw d.clk.now else d

/-- The STARTED events whose first step has come (R139). -/
def Dev.lateStarts (d : Dev) : Dev :=
  d.rings.admitted.foldl (init := d) fun (d : Dev) (a : Adm) =>
    match a.startDue with
    | none => d
    | some t =>
      if atOrAfter d.clk.now t then (d.onAdm (rSeq a.raw) fun a => { a with startDue := none }).postStarted a.raw t else d

/-- Motion result: moved, end position, overshoot, extra (R150). -/
def motionResult (moved stop : Int) (overshoot : Nat) (extra : Int) : List Byte :=
  sBytes 4 moved ++ sBytes 4 stop ++ leBytes 4 overshoot ++ sBytes 4 extra

/-- Motion result of a FEED, BACKFEED, SEEK_MARK or LEARN_MEDIA that ends where the media stands, however it ends: the edge
a SEEK_MARK has found, the revision a LEARN_MEDIA's section has (R151). -/
def Dev.moveResult (d : Dev) (m : Move) : List Byte :=
  motionResult (d.mot.bound - m.startPos) d.mot.bound d.mot.overshoot
    (match d.adm m.seq with
     | some a => if rType a.raw = 0x22 then m.found.getD 0 else if rType a.raw = 0x60 then (d.secRev (16 + lSec a.raw) : Int) else 0
     | none => 0)

/-- Motion result of a CUT, however it ends: its stroke's time (R151). -/
def Dev.cutResult (d : Dev) (c : CutRt) : List Byte :=
  motionResult (d.mot.bound - c.startPos) d.mot.bound d.mot.overshoot (c.strokeTime : Nat)

/-- Result of an ADOPT_PROFILE: the section's revision, and the cellar slot as in the record (R151). -/
def Dev.adoptResult (d : Dev) (raw : List Byte) : List Byte :=
  leBytes 4 (d.secRev (secNo (aType raw) (aIndex raw))) ++ [BitVec.ofNat 8 (aSlot raw)]

/-- The sections a record names in the sense of R110: for a BAND also its ports' maps and additions (R180), without
its ramp table under timer ticks (R330). -/
def Dev.namesSecs (d : Dev) (a : Adm) : List Nat :=
  let r := a.raw
  match rType r with
  | 0x10 => [8 + bSlot r, 16 + a.media] ++ (if d.tickSource = 2 then [] else [rRamp r]) ++
      ((portsOf (rMask r)).map fun p => [20 + p.val, 24 + p.val]).flatten
  | 0x60 => [rRamp r, 16 + lSec r]
  | 0x20 | 0x21 | 0x22 | 0x30 => [rRamp r, 16 + d.mot.curMedia]
  | 0x50 => [secNo (aType r) (aIndex r)]
  | _ => []

/-- Whether an admitted and uncompleted record names section n. -/
def Dev.secNamed (d : Dev) (n : Nat) : Bool := d.rings.admitted.any fun a => (d.namesSecs a).contains n

/-! ## Details of records -/

/-- Detail of head records (R282). -/
def headDetail (tick slots item : Nat) (value : Int) (limit : Int) (dot : Nat) : List Byte :=
  leBytes 6 tick ++ [BitVec.ofNat 8 slots, BitVec.ofNat 8 item] ++ sBytes 2 value ++ sBytes 2 limit ++ leBytes 2 dot
/-- Detail of motion FAULT records (R368). -/
def Dev.motionDetail (d : Dev) (ax : Nat) (wind : Nat) (value : Int) (limit : Nat) (tick : Nat) : List Byte :=
  [BitVec.ofNat 8 ax, BitVec.ofNat 8 wind] ++ sBytes 4 (d.axes.get (fin4Of ax)).pos ++ sBytes 2 value ++ leBytes 2 limit ++ leBytes 6 tick
/-- Detail of sensing and cutting records (10). -/
def Dev.senseDetail (d : Dev) (ch emit reading : Nat) (tick : Nat) (value : Int) : List Byte :=
  [BitVec.ofNat 8 ch, BitVec.ofNat 8 emit] ++ leBytes 2 reading ++ sBytes 4 d.mediaPos ++ leBytes 6 tick ++ sBytes 2 value
/-- Detail of press records (R632). -/
def pressDetail (slice cause tick slices port dot idx : Nat) : List Byte :=
  [BitVec.ofNat 8 slice, BitVec.ofNat 8 cause] ++ leBytes 6 tick ++ [BitVec.ofNat 8 slices, BitVec.ofNat 8 port] ++ leBytes 2 dot ++ leBytes 4 idx
/-- Detail of clock and power records (14). -/
def clockDetail (dom left : Nat) (tick : Nat) (dur cause : Nat) : List Byte :=
  [BitVec.ofNat 8 dom, BitVec.ofNat 8 left] ++ leBytes 6 tick ++ leBytes 4 dur ++ [BitVec.ofNat 8 cause]

/-- The job that a fault of the device concerns: the record that moves the media, else the band in progress. -/
def Dev.bandJob (d : Dev) : Option (W32 × W32) :=
  match (d.media.move.map (·.seq)).or (d.media.cut.map (·.seq)) with
  | some s => (d.adm s).map fun a => (rSeq a.raw, rTag a.raw)
  | none => d.line.band.map fun b => (rSeq b.raw, rTag b.raw)

/-- line_tick of the line being fired, for a detail; none when no line fires. -/
def Dev.firingTick (d : Dev) : Nat := match d.line.fire with | some f => if f.ended then noTick else f.tick.toNat | none => noTick

/-- line_tick of the first line not begun while a band is in progress; none otherwise. -/
def Dev.nextLineTick (d : Dev) : Nat := match d.line.band with | some _ => (d.clk.tickNo + 1).toNat | none => noTick

/-- The sum of slots of the line being fired whose transfer occurred (R282). -/
def Dev.slotsFired (d : Dev) : Nat := match d.line.fire with | some f => f.slot | none => 0

end Sys2Proof.Machine
end

