-- ==== Sys2Proof/Machine/Coils.lean ====
section
/-! DEFINITION. The solenoid stage as every family sees it: gates, high-side switches, releases and the end of a
solenoid record's run (R407 to R439). -/

namespace Sys2Proof.Machine

/-- Whether a channel is in its peak or hold phase. -/
def Sol.pulsing (s : Sol) : Bool := s.phase == .peak || s.phase == .hold

/-- Pair of a channel. -/
def pairOf (c : Fin 8) : Fin 4 := fin4Of (c.val / 2)
/-- The other channel of the pair. -/
def mateOf (c : Fin 8) : Fin 8 := fin8Of (if c.val % 2 = 0 then c.val + 1 else c.val - 1)

/-- Bring every HSk_G and BST_G to the level that the phases give: high during a pulse of either channel (R415),
BST_G during any peak when SET9 selects a boost limit (R411); a fenced pair stays low (R438). -/
def Dev.stageLevels (d : Dev) : Dev :=
  let on (k : Fin 4) : Bool :=
    ((d.sol.get (fin8Of (2 * k.val))).pulsing || (d.sol.get (fin8Of (2 * k.val + 1))).pulsing) && !d.solx.fenced.get k
  { d with solx := { d.solx with
      hs := d.solx.hs.mapIdx fun k _ => on k
      hsTs := d.solx.hsTs.mapIdx fun k t => if d.solx.hs.get k = on k then t else d.clk.now
      boost := d.boostLimit ≠ 0 && !d.solx.overvolt && d.sol.toList.any (fun s => s.phase == .peak) } }

/-- Drive a channel's gate. -/
def Dev.gate (d : Dev) (c : Fin 8) (on : Bool) : Dev :=
  d.onSol c fun s => if s.gate = on then s else { s with gate := on, gateTs := d.clk.now }

/-- Release a channel: its gate goes low and stays low (R415 step 3). -/
def Dev.release1 (d : Dev) (c : Fin 8) : Dev :=
  (d.gate c false).onSol c fun s =>
    if s.phase == .idle then s else { s with phase := .released, relTs := d.clk.now, phaseTs := d.clk.now, regulating := false }

/-- The run that a channel belongs to (R425). -/
def Dev.runOn (d : Dev) (c : Fin 8) : Option SolRun :=
  match (d.sol.get c).owner with
  | none => none
  | some q => d.solx.runs.find? fun r => r.seq == q

/-- The channels of a run. -/
def SolRun.chans (r : SolRun) : List (Fin 8) := if r.paired then [r.ch, mateOf r.ch] else [r.ch]

/-- Release the channel, for a paralleled pair both. -/
def Dev.releaseRun (d : Dev) (c : Fin 8) : Dev :=
  (match d.runOn c with
   | some r => d.each8 r.chans fun c d => d.release1 c
   | none => d.release1 c).stageLevels

/-! ## The chopper of a coil (R360, R414, R422) -/

/-- The next value of a 16-bit shift register with taps 16, 14, 13 and 11 (R360; its direction is PRESUMED, log entry 25). -/
def lfsrNext (r : BitVec 16) : BitVec 16 :=
  let b := r ^^^ (r >>> 2) ^^^ (r >>> 3) ^^^ (r >>> 5)
  (r >>> 1) ||| (b <<< 15)

/-- Off phase of a time in 1 µs under a register value, in 10 ns: the time by (100 + (r mod 13) - 6) / 100. -/
def offPhase (t : Nat) (r : BitVec 16) : Nat := t * (94 + r.toNat % 13)

/-- Off time, to the nearest 20 ns while MOTION runs from its fallback source (R510). -/
def Dev.offTime (d : Dev) (t : Nat) (r : BitVec 16) : Nat :=
  if d.clk.motion.src == .fallback then (offPhase t r + 1) / 2 * 2 else offPhase t r

/-- Start of the present window of the on share (R422). -/
def Sol.winTs (s : Sol) : Ts := s.regTs + BitVec.ofNat 48 (s.windows * (200 * us))

/-- A run's on phase ends after len: its gates go low for 20 µs by the register of its channel (R414, R424). -/
def Dev.coilOff (d : Dev) (r : SolRun) (len : Nat) : Dev :=
  let one (s : Sol) : Sol :=
    let l := lfsrNext s.lfsr
    let on := if s.regulating then min len (4 * since d.clk.now s.winTs) else 0
    { s with lfsr := l, off := d.offTime 20 l, winOn := s.winOn + on }
  (d.each8 r.chans fun c d => d.gate c false).onSol r.ch one

/-- Change a run. -/
def Dev.onRun (d : Dev) (seq : W32) (f : SolRun → SolRun) : Dev :=
  { d with solx := { d.solx with runs := d.solx.runs.map fun r => if r.seq = seq then f r else r } }

/-- The run of a record. -/
def Dev.run (d : Dev) (seq : W32) : Option SolRun := d.solx.runs.find? fun r => r.seq == seq

/-- theta of a channel's model, in 1/16 K (R430). -/
def Sol.theta (s : Sol) : Nat := (clampI 0 4095 (s.th / 65536)).toNat

/-- The ambient of R433, in 1/8 degree: the lowest thermistor input in force of the fitted ports, 40.0 degrees when
no port is fitted. -/
def Dev.ambient (d : Dev) : Int :=
  let ts := fin4.filterMap fun p => if d.portOn p then (d.heads.get p).thIn.value else none
  match ts with
  | [] => 320
  | t :: rest => rest.foldl min t

/-- Modelled coil temperature of a channel (R433); a paralleled pair is served by the model of SC(2k) (R430). -/
def Dev.coilTemp (d : Dev) (c : Fin 8) : Int :=
  let m := match d.runOn c with | some r => r.ch | none => c
  d.ambient + ((d.sol.get m).theta / 2 : Nat)

/-- Take a run off its channels. -/
def Dev.freeRun (d : Dev) (r : SolRun) : Dev :=
  let d := d.each8 r.chans fun c d => d.onSol c fun s => if s.owner = some r.seq then { s with owner := none, phase := .idle } else s
  { d with solx := { d.solx with runs := d.solx.runs.filter fun x => x.seq ≠ r.seq } }

/-- Result of a SOLENOID record (R150). -/
def Dev.solResult (d : Dev) (r : SolRun) : List Byte :=
  leBytes 2 (sat 16 r.done) ++ leBytes 2 (sat 16 r.seatedN) ++ leBytes 4 r.firstSeat ++ sBytes 2 (d.coilTemp r.ch)

/-- A SOLENOID record ends: served or abandoned, its channels freed. -/
def Dev.endRun (d : Dev) (r : SolRun) (e : Ending) : Dev :=
  let res := d.solResult r
  (d.freeRun r).close r.seq { e with result := res }

/-- Effect of a device-level STOP_DEVICE on the solenoid records (R439): a pulse in its peak or hold runs on and its
record is abandoned after it; a record between pulses is abandoned at once; one that has not begun is refused. The
run of a CUT follows its CUT. The completions name the level and the origin (R42). -/
def Dev.stopRuns (d : Dev) (code : W16) (ref : W32) (lvl : Lvl) : Dev :=
  d.solx.runs.foldl (init := d) fun d r =>
    match d.adm r.seq with
    | none => d
    | some a =>
      if !r.begun then (if rType a.raw = 0x40 then { d with solx := { d.solx with
          runs := d.solx.runs.filter fun x => x.seq ≠ r.seq } }.refuse r.seq code ref else d)
      else if (d.sol.get r.ch).phase == .idle then
        (if rType a.raw = 0x40 then d.endRun r { res := .abandoned, lvl := lvl, origin := d.originOf lvl, code := code, ref := ref } else d)
      else d.onRun r.seq fun r => if r.stop.isSome then r else { r with stop := some (code, ref, lvl) }

/-- Hold every gate of the stage low through logic that needs no clock (R412, R507, R513). -/
def Dev.gatesLow (d : Dev) : Dev := (d.each8 fin8 fun c d => d.release1 c).stageLevels

/-- The reason for a SOLENOID's or a CUT's trim, 0 for none (R33, R403, R419, R432). -/
def Dev.trimReason (d : Dev) (seq : W32) : W16 :=
  match d.adm seq with
  | some a => if a.trimCode ≠ 0 then a.trimCode else if a.trimmed then cSolenoidTrim else 0
  | none => 0

/-- Detail of solenoid records (11). -/
def Dev.solDetail (d : Dev) (ch hs : Nat) (value limit : Nat) : List Byte :=
  let idx := if ch < 8 then match d.runOn (fin8Of ch) with | some r => r.index | none => 0xFFFF else 0xFFFF
  [BitVec.ofNat 8 ch, BitVec.ofNat 8 hs] ++ leBytes 2 idx ++ leBytes 2 value ++ leBytes 2 limit ++ leBytes 2 d.solx.vbst ++
    sBytes 2 (if ch < 8 then d.coilTemp (fin8Of ch) else 0)

end Sys2Proof.Machine
end

