-- ==== Sys2Proof/Machine/Bands.lean ====
section
/-! DEFINITION. The band in progress as every family sees it: its data, its stops, the closing of a line and its
end (R117, R149 to R154, R171 to R174, R315, R320). -/

namespace Sys2Proof.Machine

/-! ## A band's data -/

/-- Dots of every port. -/
def Dev.portDots (d : Dev) : Quad Nat := d.pers.ports.mapIdx fun _ b => b.dots

/-- line_bytes of a BAND record (R168). -/
def Dev.bandBytes (d : Dev) (raw : List Byte) : Nat := lineBytes d.portDots (rMask raw) (bPlane raw) (bBits raw)

/-- first_block_seq of the BANDs posted after a record (R174). One of line_count 0 uses no block and ends no other band's data
(DESIGN CHOICE, log entry 130). -/
def Dev.laterFirsts (d : Dev) (seq : W32) : List W32 :=
  let rs := d.rings.admitted.map (·.raw) ++ d.rings.posted.map (·.1)
  (rs.filter fun r => rType r == 0x10 && laterSeq (rSeq r) seq && 0 < bLines r).map bFirst

/-- Whether line j of a BAND is present (R172); base is the first block not handed back, with the stream offset of
its first byte. -/
def Dev.linePresent (d : Dev) (raw : List Byte) (base : W32 × Nat) (j : Nat) : Bool :=
  let n := d.bandBytes raw
  base.2 ≤ j * n && d.streamThere (d.laterFirsts (rSeq raw)) 1000 base.1 (j * n - base.2) n

/-- Where a band's data end early, at a later band's first block or at a consumed block: the number of lines held wholly
before it, with the code and the FAULT record (R116, R174). -/
def Dev.overlapAt (d : Dev) (raw : List Byte) : Nat → W32 → Nat → Option (Nat × W16 × W32)
  | 0, _, _ => none
  | f + 1, seq, off =>
    let n := d.bandBytes raw
    if bLines raw * n ≤ off then none
    else if (d.laterFirsts (rSeq raw)).contains seq then some (off / max n 1, cBandDataOverlap, 0)
    else match d.win.exhausted.find? fun x => x.1 == seq with
    | some x => some (off / max n 1, cResendExhausted, x.2)
    | none => match d.win.block seq with
      | none => none
      | some b => d.overlapAt raw f (seq + 1) (off + b.len)

/-- Hand one passed block back and forget it; it is the last block consumed (R117, R173). -/
def Dev.dropBlock (d : Dev) (b : Blk) : Dev :=
  let d := d.handBack (poolBlock b.pos)
  { d with win := { d.win with passed := d.win.passed.filter (fun x => x.seq ≠ b.seq), lastBandBlock := some b.seq } }

/-- Hand back the blocks of a band from base on: those whose bytes end at or before off, or with all set every one
that begins before off (R117, R171). A later band's blocks are left alone (R174). -/
def Dev.dropBlocks (d : Dev) (stop : List W32) (all : Bool) (off : Nat) : Nat → W32 × Nat → Dev × (W32 × Nat)
  | 0, base => (d, base)
  | f + 1, (seq, o) =>
    if stop.contains seq then (d, (seq, o)) else
    match d.win.block seq with
    -- a block that never came ends no band's claim to those behind it; it holds 4,080 bytes at most
    | none => if all && o < off then d.dropBlocks stop all off f (seq + 1, o + 4080) else (d, (seq, o))
    | some b =>
      if (if all then decide (o < off) else decide (o + b.len ≤ off)) then (d.dropBlock b).dropBlocks stop all off f (seq + 1, o + b.len)
      else (d, (seq, o))

/-- Blocks that a BAND record uses go back when it completes without a line fired (R117). -/
def Dev.dropBand (d : Dev) (raw : List Byte) (base : W32 × Nat) : Dev :=
  (d.dropBlocks (d.laterFirsts (rSeq raw)) true (bLines raw * d.bandBytes raw) 1000 base).1

/-! ## Where a band's lines lie -/

/-- How far behind a boundary the media rests: 1/4 line under encoder ticks, in 1/64 line (R299, R313, R315). -/
def Dev.behind (d : Dev) : Int := if d.tickSource = 1 then 16 else 0

/-- The media moves under the band: not under timer ticks, and not at a member of a WIDE or TANDEM stack (R330,
R576, R629). -/
def Dev.isMember (d : Dev) : Bool := 2 ≤ d.mode && d.pos ≠ 0
/-- Whether a band's travel is the device's own. -/
def Dev.bandMoves (d : Dev) : Bool := d.tickSource ≠ 2 && !d.isMember

/-- The lines that a band will fire: all of them, or those before its data's early end (R116, R174). -/
def BandRt.lines (b : BandRt) : Nat := match b.overlapEnd with | some x => min x.1 (bLines b.raw) | none => bLines b.raw

/-- A stop plan or a required rest leaves no further line to begin at this boundary. -/
def BandRt.restsAt (b : BandRt) (j : Nat) : Bool := b.restAfter == some (j : Int)

/-- Whether the line under way is followed by no tick of the band: its last one, the last before a rest, or one after
which it is abandoned. -/
def Dev.endsHere (d : Dev) (b : BandRt) : Bool :=
  (b.lines ≤ b.next && d.line.following.isNone && b.chains.isEmpty) || b.restsAt b.next || b.abandonAt.isSome

/-- Media position of the boundary of line j of a band. -/
def BandRt.bound (b : BandRt) (j : Nat) : Int := b.pos0 + 64 * (j : Int)

/-- The line boundary at which a band in its lead_in stops: the next one ahead, counted back from the first line. -/
def Dev.stopBound (d : Dev) (b : BandRt) : Int :=
  if 0 < b.next then b.bound b.next
  else b.pos0 - 64 * ((b.pos0 - d.mediaPos) / 64)

/-! ## Stopping and closing -/

/-- TICK_TIMES for the entries held (R320). -/
def Dev.flushTimes (d : Dev) : Dev :=
  match d.line.band with
  | none => d
  | some b =>
    if b.devs.isEmpty then d else
    let body := [BitVec.ofNat 8 b.devs.length, 0] ++ (b.devs.map fun v => sBytes 3 v).flatten ++ zeros (18 - 3 * b.devs.length)
    let ev := eventBody 0 .none 0 d.pos (rSeq b.raw) 0 0 body
    let d := (d.make .never 0x81 128 (rMask b.raw) (rTag b.raw) cTickTimes d.clk.now b.devTick ev).2
    { d with line.band := some { b with devs := [] } }

/-- BAND_PAUSE for the pause that ends now at a tick, or with no end when the band is abandoned (R154). -/
def Dev.postPause (d : Dev) (b : BandRt) (endTs : Option Ts) : Dev :=
  d.report {
    code := cBandPause, job := rJob b.raw, ports := rMask b.raw
    detail := leBytes 6 b.pauseStart.toNat ++ leBytes 6 ((endTs.map (·.toNat)).getD 0) ++ leBytes 2 b.pauseCause.toNat ++ leBytes 4 (b.next - 1) }

/-- The completion of the band in progress (R148, R150, R154). -/
def Dev.endBand (d : Dev) (e : Ending) : Dev :=
  let d := d.flushTimes
  match d.line.band with
  | none => d
  | some b =>
    let d := if b.pauseOwed then d.postPause b none else d
    -- the reaction of an earlier fault that held the band until now has delayed it (R550)
    let d := if b.pauseOwed && b.pauseRef ≠ 0 && atOrAfter d.clk.now b.pauseStart then
        d.onAdm (rSeq b.raw) fun a => a.addLost (since d.clk.now b.pauseStart) b.pauseCause b.pauseRef b.waitPeriod
      else d
    let d := (d.dropBlocks (d.laterFirsts (rSeq b.raw)) true (bLines b.raw * d.bandBytes b.raw) 1000 b.base).1
    let (code, ref) := if b.damageRef ≠ 0 && (e.ref = 0 || laterSeq e.ref b.damageRef) then (b.damageCode, b.damageRef) else (e.code, e.ref)
    let fired := decide (0 < b.next)
    let d := d.close (rSeq b.raw) { e with
      code := code, ref := ref, detail := b.pauses, aux := b.damaged,
      flags := e.flags ||| (if 0 < b.damaged then 4 else 0),
      result := leBytes 6 (if fired then b.firstTick.toNat else 0) ++ leBytes 6 (if fired then b.firstTs.toNat else 0) ++
        leBytes 4 (b.firstDamaged.getD 0xFFFFFFFF),
      at_ := if fired then some (b.lastTs, b.lastTick) else none }
    -- the computed first line of a band that follows at once stands
    let keep := d.line.pend.bind fun (x : PendLine) => if x.seq = rSeq b.raw then none else some x
    { d with line := { d.line with
        band := none, pend := keep, startTs := none
        demand := d.line.demand.filter fun x => x.seq ≠ rSeq b.raw } }

/-- A band whose data end early is abandoned after its last whole line: at device level for a consumed block (R116), at
none for a later band's data (R174). -/
def Dev.cutBand (d : Dev) : Dev :=
  match d.line.band.bind (·.overlapEnd) with
  | some (_, c, ref) => d.endBand { res := .abandoned, lvl := if c = cResendExhausted then .device else .none, origin := d.pos, code := c, ref := ref }
  | none => d

/-- A later band whose ramp table waits for rest is delayed from the last tick of the band before it to the moment the
media comes to rest, in that band's last committed periods (R354). -/
def Dev.deferRamp (d : Dev) (b : BandRt) : Dev :=
  { d with rings := { d.rings with admitted := d.rings.admitted.map fun (a : Adm) =>
      if a.deferred && b.chains.isEmpty then { a.addLost (since d.clk.now b.lastTs) cRampDeferred 0 (since d.line.planned b.lastTs) with deferred := false } else a } }

/-- A band that has served its last line (R150, R237), or the last one before its data's early end. -/
def Dev.serveBand (d : Dev) : Dev :=
  match d.line.band with
  | none => d
  | some b =>
    if b.lines < bLines b.raw then d.cutBand else
    let trimmed := ((d.adm (rSeq b.raw)).map (·.trimmed)).getD false
    (d.deferRamp b).endBand { code := if trimmed then cCeilingTrim else 0 }

/-- Close the bookkeeping of the line that has ended (R19 step 3): the damaged line counts (R282), blocks go back
(R117), and the band completes after its last line or where it is to be abandoned. -/
def Dev.closeLine (d : Dev) : Dev :=
  match d.line.fire with
  | none => d
  | some f =>
    let d := { d with line.fire := none }
    match d.line.band with
    | none => d
    | some b =>
      if rSeq b.raw ≠ f.seq then d else
      -- a line of which no transfer occurred is not damaged (R282)
      let b := if f.damaged && 0 < f.slot then { b with damaged := b.damaged + 1, firstDamaged := some (b.firstDamaged.getD f.idx) } else b
      let (d, base) := d.dropBlocks (d.laterFirsts (rSeq b.raw)) false ((f.idx + 1) * d.bandBytes b.raw) 1000 b.base
      let d := { d with line := { d.line with
        band := some { b with base := base }
        demand := d.line.demand.filter fun x => !(x.seq == f.seq && x.idx ≤ f.idx) } }
      if b.lines ≤ b.next then d.serveBand
      else match b.abandonAt with
        | some (c, r, l) => d.endBand { res := .abandoned, lvl := l, origin := d.originOf l, code := c, ref := r }
        | none => d

/-- Whether strobes of a port remain in a line: a phase of the slot under way, or a bit of a slot to come (R282). -/
def FireLine.left (f : FireLine) (p : Fin 4) : Bool :=
  !f.ended && !f.killed.getLsbD p.val &&
    ((f.phases.drop f.phase).any (fun l => l.any fun x => x.1 = p.val) || (f.slots.get p).any fun w => w / 2 ^ f.slot ≠ 0)

/-- Whether a kill of these ports damages the line under way: strobes of theirs remain. -/
def Dev.cuts (d : Dev) (ps : List (Fin 4)) : Bool := match d.line.fire with | some f => ps.any f.left | none => false

/-- The line under way is cut by a safety limit (R202, R282): damaged where strobes remained, with the FAULT record that did
it. -/
def Dev.damage (d : Dev) (ps : List (Fin 4)) (code : W16) (ref : W32) : Dev :=
  match d.line.fire, d.line.band with
  | some f, some b =>
    if f.ended then d else
    let hit := ps.any f.left
    { d with line := { d.line with
        fire := some { f with damaged := f.damaged || hit, killed := f.killed ||| BitVec.ofNat 4 (maskOf ps) }
        band := some (if hit && b.damageRef = 0 then { b with damageRef := ref, damageCode := code } else b) } }
  | _, _ => d

/-- The band stops at the next line boundary (R38, R315, R536): no further line begins, the computed line is
discarded (R201), the media decelerates and, unless it is to be abandoned, returns to the boundary. -/
def Dev.stopBand (d : Dev) (code : W16) (ref : W32) (back : Bool) : Dev :=
  match d.line.band with
  | none => d
  | some b =>
    match b.phase with
    | .waiting => d
    | .starting =>
      { d with line := { d.line with
        startTs := none, pend := none
        band := some { b with phase := if b.pauseOwed || 0 < b.next then .resting else .waiting } } }
    | .firing =>
      let d := d.flushTimes
      -- a band that a pause still holds, its next line not begun, stays in that pause
      let fresh := decide (0 < b.next ∧ b.next < b.lines) && !b.pauseOwed
      let b := { b with devs := [], phase := .stopping, restAfter := none }
      let b := if b.pauseOwed then b else { b with
        pauseStart := d.line.planned, pauseCause := code, pauseRef := ref, pauseOwed := fresh, pauses := b.pauses + b2n fresh
        waitPeriod := if fresh then d.line.period else pRate (rRate b.raw) }
      let d := { d with line := { d.line with pend := none, following := none, sampled := false, band := some b } }
      if d.bandMoves then d.stopMedia (if back then some (d.stopBound b - d.behind) else none) else d
    | .stopping =>
      -- a stop for late data under way: the fault's return takes the band to the first line not fired
      if b.restAfter.isSome then
        let d := { d with line := { d.line with pend := none, band := some { b with restAfter := none, pauseCause := code, pauseRef := ref } } }
        if d.bandMoves then d.stopMedia (if back then some (d.stopBound b - d.behind) else none) else d
      else d
    | .resting => d

/-- The band is to be abandoned: at the boundary behind the line under way, at once when none fires; a band of which
nothing was done is refused (R30, R536). A band that was printing is not paused by it (R154). -/
def Dev.abandonBand (d : Dev) (code : W16) (ref : W32) (lvl : Lvl) : Dev :=
  let printing := (d.line.band.map fun (b : BandRt) => b.phase == .firing && !b.pauseOwed).getD false
  let d := d.stopBand code ref false
  let d := if printing then { d with line := { d.line with band := d.line.band.map fun (b : BandRt) => { b with
    pauseOwed := false, pauses := b.pauses - b2n b.pauseOwed } } } else d
  -- no return is left to make, or to go on with (R12)
  let d := if d.line.band.isSome && d.bandMoves then d.stopMedia none else d
  match d.line.band with
  | none => d
  | some b =>
    if b.next = 0 && (b.phase == .waiting || b.phase == .starting) then
      (let d := d.dropBand b.raw b.base
       { d with line := { d.line with band := none, pend := none, startTs := none } }.refuse (rSeq b.raw) code ref)
    else if d.line.fire.isSome then
      { d with line.band := some { b with abandonAt := some (match b.abandonAt with
        | some (c, r, l) => (c, r, if l == .port then lvl else l)
        | none => (code, ref, lvl)) } }
    else d.endBand { res := .abandoned, lvl := lvl, origin := d.originOf lvl, code := code, ref := ref }

/-! ## Records that move the media -/

/-- The admitted record under way that moves the media by a FEED, BACKFEED, SEEK_MARK, LEARN_MEDIA or CUT. -/
def Dev.mover (d : Dev) : Option W32 :=
  match d.media.move with
  | some m => some m.seq
  | none => d.media.cut.map (·.seq)

/-- A moving record stops by R315 and returns to the next boundary counted from its start. -/
def Dev.pauseMove (d : Dev) : Dev :=
  if d.mover.isNone || d.mot.travel != .planned then d else
  let g := d.mot
  let b : Int := if g.fwd then g.baseM + 64 * ((d.mediaPos - g.baseM + 63) / 64) else g.baseM - 64 * ((g.baseM - d.mediaPos + 63) / 64)
  -- a boundary past the record's goal is its goal
  let b := match g.target with | some t => if g.fwd then min b t else max b t | none => b
  let d := { d with media.move := d.media.move.map fun (m : Move) => { m with paused := true } }
  d.stopMedia (some b)

/-- A moving record is abandoned: the media comes to rest without return, and the record completes there. -/
def Dev.abandonMove (d : Dev) (code : W16) (ref : W32) (lvl : Lvl) : Dev :=
  { d with mot.stopAbandon := if d.mot.stopAbandon.isSome then d.mot.stopAbandon else some (code, ref, lvl) }.stopMedia none

/-! ## Tasting -/

/-- Result of a TASTE_HEAD (R151, R292). -/
def Taste.result (t : Taste) : List Byte :=
  let all := t.found.toList.flatten
  let live := (all.filter fun x => x.2.2 == 0).map fun x => x.2.1
  let lo := live.foldl min 65535
  let n := live.length
  leBytes 2 (sat 16 all.length) ++ leBytes 2 (sat 16 (all.filter fun x => 8 ≤ x.2.2).length) ++
    leBytes 2 (if n = 0 then 0 else lo) ++ leBytes 2 (live.foldl max 0) ++ leBytes 2 (if n = 0 then 0 else live.foldl (· + ·) 0 / n)

/-- HMEAS goes low, unless STROBE_STUCK holds it (R270, R289 step 5). -/
def Dev.hmeasLow (d : Dev) : Dev :=
  if d.sys.hmeas && !d.sys.hmeasStuck then { d with sys.hmeas := false, sys.hmeasFallTs := some d.clk.now } else d

/-- What a measured dot is by R291: 0 alive, 1 open, 2 high, 3 low; nom is r_nom. -/
def tasteCause (isOpen : Bool) (r nom : Nat) : Nat := if isOpen then 1 else if 3 * nom < 2 * r then 2 else if 2 * r < nom then 3 else 0

/-- Whether a dot is in a port's factory or grown entries (R183). -/
def Dev.deadAlready (d : Dev) (p : Fin 4) (dot : Nat) : Bool :=
  (d.heads.get p).grown.contains dot || (d.factoryDead p).any fun w => eDot w == dot

/-- One dot's finding: its grown entry, and DOT_DEAD when it is newly dead (R184, R291). The answer is the cause, with 8
added for a dot newly dead. -/
def Dev.dotFound (d : Dev) (p : Fin 4) (job : Option (W32 × W32)) (dot r cause : Nat) : Dev × Nat :=
  if cause = 0 then (d.onHead p fun h => { h with grown := h.grown.filter (· ≠ dot) }, 0) else
  let fresh := !d.deadAlready p dot
  let d := d.onHead p fun h => { h with grown := insertNat dot h.grown }
  if !fresh then (d, cause) else
  (d.report { code := cDotDead, sev := some .note, lvl := .port, port := p.val, job := job, ports := 2 ^ p.val,
              detail := headDetail noTick 0 0 r cause dot }, cause + 8)

/-- The mean of the resistances of some findings, 0 for none. -/
def meanOf (l : List Nat) : Nat := if l.isEmpty then 0 else l.foldl (· + ·) 0 / l.length

/-- Without a card r_nom is the mean of the run's dots that are not open, so the run's end decides which are dead (R291). -/
def Dev.judgePort (d : Dev) (p : Fin 4) (job : Option (W32 × W32)) (l : List (Nat × Nat × Nat)) : Dev × List (Nat × Nat × Nat) :=
  if (d.card p).isSome then (d, l) else
  let nom := meanOf ((l.filter fun x => x.2.2 ≠ 1).map fun x => x.2.1)
  l.foldl (init := (d, ([] : List (Nat × Nat × Nat)))) fun (acc : Dev × List (Nat × Nat × Nat)) (x : Nat × Nat × Nat) =>
    let (d, c) := acc.1.dotFound p job x.1 x.2.1 (tasteCause (x.2.2 == 1) x.2.1 nom)
    (d, acc.2 ++ [(x.1, x.2.1, c)])

/-- The ledger of a port after a tasting run, and DOT_DRIFT (R554). -/
def Dev.ageTaste (d : Dev) (p : Fin 4) (l : List (Nat × Nat × Nat)) : Dev :=
  let a := 0x40 + 0x40 * p.val
  let d := ((d.ledAdd (a + 0x10) 2 1).ledSet (a + 0x12) 2 (d.heads.get p).grown.length).ledSet (a + 0x0C) 4 (d.led 4 4)
  let mean := meanOf ((l.filter fun x => x.2.2 == 0).map fun x => x.2.1)
  if 2 * l.length < (d.pers.ports.get p).dots || mean = 0 then d else
  let d := d.ledSet (a + 6) 2 mean
  let base := d.led (a + 4) 2
  if base = 0 then (d.ledSet (a + 4) 2 mean).ledSet (a + 8) 4 (d.led 4 4)
  else if mean * 10 < base * 9 then d.ageOnce cDotDrift 0 p.val mean base (base * 9 / 10)
  else if base * 11 < mean * 10 then d.ageOnce cDotDrift 0 p.val mean base (base * 11 / 10)
  else d

/-- What the end of a tasting run does before its completion: findings and ledger (R184, R291, R554). -/
def Dev.tasteEnd (d : Dev) (t : Taste) : Dev × Taste :=
  match d.adm t.seq with
  | none => (d, t)
  | some a =>
    (portsOf (rMask a.raw)).foldl (init := (d, t)) fun (acc : Dev × Taste) (p : Fin 4) =>
      let (d, l) := acc.1.judgePort p (rJob a.raw) (acc.2.found.get p)
      let d := if l.isEmpty then d else d.ageTaste p l
      (d, { acc.2 with found := acc.2.found.set p l })

/-- A tasting run's record completes at the last reading; its release goes on (R150, R289). -/
def Dev.completeTaste (d : Dev) (t : Taste) (e : Ending) : Dev :=
  let (d, t) := d.tasteEnd t
  { d with taste := d.taste.map fun (x : Taste) => { x with ended := true } }.close t.seq { e with result := t.result }

/-- A tasting run ends with its completion. -/
def Dev.closeTaste (d : Dev) (t : Taste) (e : Ending) : Dev :=
  let (d, t) := d.tasteEnd t
  { d with taste := none, heads := d.heads.mapIdx fun _ h => { h with strobes := 0 } }.hmeasLow.close t.seq { e with result := t.result }

/-- A tasting run ends at once, abandoned. -/
def Dev.abandonTaste (d : Dev) (code : W16) (ref : W32) (lvl : Lvl) : Dev :=
  match d.taste with
  | none => d
  | some t => d.closeTaste t { res := .abandoned, lvl := lvl, origin := d.originOf lvl, code := code, ref := ref }

end Sys2Proof.Machine
end

