-- ==== Sys2Proof/Machine/Frames.lean ====
section
/-! DEFINITION. Link frames: how one is built, checked and put on the link (R563, R567 to R571). -/

namespace Sys2Proof.Machine

/-- Node number (R563). -/
def Dev.node (d : Dev) : Nat := 2 * d.pos + b2n (d.role == 2)

/-- Whether the chip is on a ring at all (R562). -/
def Dev.onRing (d : Dev) : Bool := d.role ≠ 0 || d.mode ≠ 0

/-- Order of the frame types (R570). -/
def frameRank (ty : Nat) : Nat :=
  match ty with | 0x20 => 0 | 0x21 => 1 | 0x30 => 2 | 0x22 => 3 | 0x40 => 4 | 0x10 => 5 | _ => 6

/-- A frame's bytes with its check word (R567). -/
def frameBytes (ty src dst : Nat) (seq : Byte) (attempt tickLow : Nat) (payload : List Byte) : List Byte :=
  let r : List Byte := [BitVec.ofNat 8 ty, BitVec.ofNat 8 src, BitVec.ofNat 8 dst, seq, BitVec.ofNat 8 payload.length,
    BitVec.ofNat 8 attempt] ++ leBytes 2 tickLow ++ payload
  r ++ leBytes 4 (crc32c r).toNat

/-- Put a frame among those sent at one moment, in the order of R570. -/
def insertFrame (f : List Byte) : List (List Byte) → List (List Byte)
  | [] => [f]
  | g :: gs => if frameRank (le f 0 1) < frameRank (le g 0 1) then f :: g :: gs else g :: insertFrame f gs

/-- Send a frame of the chip's own when its LINK domain runs. -/
def Dev.sendFrame (d : Dev) (ty dst tickLow : Nat) (payload : List Byte) : Dev :=
  if !d.onRing || !d.clk.linkRun then d else
  let l := d.link
  let bytes := frameBytes ty d.node dst l.seq 0 tickLow payload
  { d with link := { l with
      seq := l.seq + 1
      flights := (l.flights.filter fun f => f.bytes.getD 3 0 ≠ l.seq) ++ [{ bytes := bytes, ts := d.clk.now }]
      sent := insertFrame bytes (if l.sentTs = d.clk.now then l.sent else [])
      sentTs := d.clk.now } }

/-- EVENT frame of a detection (R570, R571, R591). flags: 1 RELEASE, 2 SHADOWED, 4 ESCALATED, 8 JOB_VALID. -/
def Dev.sendEvent (d : Dev) (code : W16) (sev scope flags : Nat) (lineTick : Nat) (job : W32) (detail : List Byte) : Dev :=
  d.sendFrame 0x30 0xFF 0 (leBytes 2 code.toNat ++ [BitVec.ofNat 8 sev, BitVec.ofNat 8 scope, BitVec.ofNat 8 flags, 0] ++
    leBytes 6 d.clk.now.toNat ++ leBytes 6 lineTick ++ leBytes 4 job.toNat ++ (detail ++ zeros (20 - detail.length)).take 20)

/-- Whether this chip is the primary of a formed pair. -/
def Dev.pairPrimary (d : Dev) : Bool := d.link.formed && d.role == 1 && d.link.driving
/-- Whether this chip is the secondary of a formed pair. -/
def Dev.pairSecondary (d : Dev) : Bool := d.link.formed && d.role == 2 && !d.link.driving

/-- Whether this chip sends TICK frames: the stack master, the driving half of a pair (R561, R570). -/
def Dev.ticksRing (d : Dev) : Bool := d.pairPrimary || (d.mode ≠ 0 && d.pos == 0 && d.link.driving)

/-- A TICK frame. -/
def Dev.sendTick (d : Dev) (kind flags : Nat) (ts : Ts) (period line : Nat) (body : List Byte) : Dev :=
  if !d.ticksRing then d else
  d.sendFrame 0x20 0xFF line ([BitVec.ofNat 8 kind, BitVec.ofNat 8 flags] ++ leBytes 6 ts.toNat ++ leBytes 4 period ++
    leBytes 4 d.port.writeCount.toNat ++ (body ++ zeros (36 - body.length)).take 36)

/-- Whether some member of the stack has not sent its plan for the period of the latest tick (R573). -/
def Dev.plansMissing (d : Dev) : Bool :=
  d.ticksRing && d.pos == 0 && d.link.ticked && 2 ≤ d.mode && d.link.nodes.any fun n =>
    2 ≤ n.1 && n.1 % 2 = 0 && (match d.link.plans.get (fin4Of (n.1 / 2)) with | some p => p.tick != d.clk.tickNo | none => true)

/-- t_ring of R569 in 10 ns units. -/
def Dev.tRing (d : Dev) : Nat := 128 + 20 * (d.link.nodes.length + 1)

/-- E of R575 in 40 ns units; 0 where no line waits for a frame. -/
def Dev.linkE (d : Dev) : Nat :=
  if 2 ≤ d.mode then ceilDiv (4 * d.tRing + 80) 4 else if d.link.formed then ceilDiv (2 * d.tRing + 40) 4 else 0

/-- Whether the TICK frame of the latest tick is still undelivered (R573). -/
def Dev.tickUndelivered (d : Dev) : Bool :=
  d.ticksRing && d.linkE ≠ 0 && d.link.flights.any fun f =>
    le f.bytes 0 1 = 0x20 && le f.bytes 8 1 = 0 && le f.bytes 0x18 6 = d.clk.tickNo.toNat

/-- What the master's next pulse waits for has not come (R573). -/
def Dev.framesMissing (d : Dev) : Bool := d.plansMissing || d.tickUndelivered

/-- Twelve-bit codes packed in pairs, the first in the low bits (R570). -/
def pack12 : List Nat → List Byte
  | [] => []
  | [a] => leBytes 2 a
  | a :: b :: rest => leBytes 3 (a % 4096 + 4096 * (b % 4096)) ++ pack12 rest

/-- The slot plane s of a port's line, dot d at bit d mod 8 of byte d / 8 (R592). -/
def planeBytes (s : Nat) (slots : List Nat) : List Byte :=
  (List.range (ceilDiv slots.length 8)).map fun i =>
    BitVec.ofNat 8 ((((slots.drop (8 * i)).take 8).zipIdx).foldl (fun n x => n + b2n (bit x.1 s) * 2 ^ x.2) 0)

/-- Positions of the four axes. -/
def Dev.axisPos (d : Dev) : List Int := d.axes.toList.map (·.pos)

/-- line_crc of the line that has ended (R592): its planes, then for each axis the steps issued in its period and the
position at the period's end. -/
def Dev.lineCrc (d : Dev) (f : FireLine) : W32 :=
  let planes := (f.slots.toList.map fun l => ((List.range f.durs.length).map fun s => planeBytes s l).flatten).flatten
  let moved := (d.axisPos.zipIdx).map fun x => sBytes 4 (x.1 - d.link.linePos.getD x.2 x.1) ++ sBytes 4 x.1
  crc32c (planes ++ moved.flatten)

/-- In a formed pair the ended line's check word is kept, and the secondary sends it (R570, R592). -/
def Dev.checkLine (d : Dev) : Dev :=
  match d.link.formed, d.line.fire with
  | true, some f =>
    let crc := d.lineCrc f
    let d := { d with link := { d.link with lineCrcs := (d.link.lineCrcs ++ [(f.tick, crc, ~~~ d.link.statusCrc)]).drop (d.link.lineCrcs.length - 7), linePos := d.axisPos } }
    if d.pairSecondary then
      d.sendFrame 0x22 (2 * d.pos) (f.tick.toNat % 65536)
        (leBytes 6 f.tick.toNat ++ leBytes 4 crc.toNat ++ leBytes 4 (~~~ d.link.statusCrc).toNat ++ [BitVec.ofNat 8 d.slicesIn, 0])
    else d
  | _, _ => d

/-- The line that has ended: its check word, then its bookkeeping (R19 step 3). -/
def Dev.endLine (d : Dev) : Dev := d.checkLine.closeLine

/-- Where a detail holds its line_tick, by code (R282, R368, 10, R632, 14, 16); none for a detail without one. -/
def detailTick (code : W16) : Option Nat :=
  match code.toNat / 256 with
  | 1 => some 0 | 2 => some 2 | 3 => if code = cTickOverrun then some 0 else none | 4 => some 10 | 5 => some 8 | 0x0A => some 2 | 0x0B => some 4 | _ => none

/-- line_tick for an EVENT frame, from a detail. -/
def lineTickOf (code : W16) (detail : List Byte) : Nat :=
  match detailTick code with | some o => le detail o 6 | none => noTick

end Sys2Proof.Machine
end

