-- ==== Sys2Proof/Machine/Resets.lean ====
section
/-! DEFINITION. What every kind of reset leaves (R104, R160 to R162, R204, R516 to R518, R534, R542, R598). -/

namespace Sys2Proof.Machine

/-- The cellar's cells and bad-sector tables survive every reset; a store in progress, the pending store set, a held
pulse and the refusal of a worn cellar do not (R493, R534). -/
def Cellar.keep (c : Cellar) : Cellar := { cells := c.cells, soft := c.soft, bad := c.bad, tab0 := c.tab0, tab1 := c.tab1 }

/-- TWIN_OWN is released at every reset (R595); a half that leaves a reset while its partner holds it low does not
rejoin (R598). drives says whether the chip drives its outputs without a partner. -/
def Link.afterReset (l : Link) (keepLost drives : Bool) : Link :=
  { driving := drives, dissolved := keepLost && l.dissolved, alone := keepLost && l.alone, seq := l.seq
    joined := !keepLost || l.joined, nodes := if keepLost then l.nodes else [], seen := if keepLost then l.seen else []
    sent := l.sent, sentTs := l.sentTs, forwarded := l.forwarded, fwdTs := l.fwdTs,
    aligned := l.aligned, alignTs := l.alignTs }

/-- Power-on reset and RESET_N: everything starts again; RESET_N keeps the timestamp and the tick number (R534). -/
def Dev.hardReset (d : Dev) (kind : ResetKind) : Dev :=
  let keep := kind != .powerOn
  { clk := { now := if keep then d.clk.now else 0, slowPhase := d.clk.slowPhase, tickNo := if keep then d.clk.tickNo else 0,
             tickTs := if keep then d.clk.tickTs else 0, clkinOk := d.clk.clkinOk }
    sys := { resetKind := kind, vhioOk := d.sys.vhioOk, frees := d.sys.frees }
    win := { epoch := d.win.epoch + 1 }
    cel := d.cel.keep
    link := d.link.afterReset false false }

/-- A safety reset (R518). oldest_open_seq and last_admitted_seq are those of this reset's own moment, so a second HALT
before READY shows 0 (DESIGN CHOICE, log entry 120); a completion still in the status queue counts as made (DESIGN
CHOICE, log entry 121). A shadow runs for its time from its action on (R543). The personality, the fenced pairs, HMEAS held by STROBE_STUCK, the counting windows, the
measured rate and the time are kept; the clocks too unless one of them caused the HALT. body holds +0x1A to +0x3B of
the HALT's record, for the restated FAULT of R162. -/
def Dev.safetyReset (d : Dev) (code : W16) (body : List Byte) (clock : Bool) : Dev :=
  let opens := d.rings.admitted.map fun a => rSeq a.raw
  let oldest := match opens with | [] => 0 | s :: rest => rest.foldl (fun m x => if laterSeq m x then x else m) s
  { clk := if clock then { now := d.clk.now, slowPhase := d.clk.slowPhase, tickNo := d.clk.tickNo, tickTs := d.clk.tickTs, clkinOk := d.clk.clkinOk }
           else d.clk
    sys := { phase := if clock then .locking else .vintage, resetKind := .safety, haltCode := code, haltBody := body,
             oldestOpen := oldest, lastAdmitted := d.rings.lastAdm, faultN := false, faultNTs := if d.sys.faultN then d.clk.now else d.sys.faultNTs
             vhioOk := d.sys.vhioOk, hmeas := d.sys.hmeasStuck, hmeasStuck := d.sys.hmeasStuck, frees := d.sys.frees
             early := d.sys.early.filter fun r => r.code == cStrobeStuck
             sleepPin := d.sys.sleepPin, sleepTs := d.sys.sleepTs, sleepIgnored := d.sys.sleepIgnored }
    pers := d.pers
    win := { epoch := d.win.epoch + 1 }
    solx := { fenced := d.solx.fenced }
    uart := { rate := d.uart.rate }
    cel := d.cel.keep
    flt := { hist := d.flt.hist, shadows := d.flt.shadows.filter fun s => s.until_.isSome }
    age := { powered := d.age.powered, run := d.age.run }
    link := d.link.afterReset true (d.role == 0 || (d.link.driving && !d.link.formed)) }

/-- The rest of the frame of the HALT's record, for its restatement (R120, R162). -/
def Dev.haltFrame (d : Dev) (flags ports : Nat) (tag : W32) : Dev :=
  { d with sys := { d.sys with haltFlags := flags, haltPorts := ports, haltTag := tag } }

/-- The model of one port starts again (R204), with the firing hold (R521). -/
def Dev.initPort (d : Dev) (p : Fin 4) : Dev :=
  d.onHead p fun h => { h with
    dots := h.dots.filterMap fun (i, w) => if wRes w = 0 then none else some (i, mkWord 0 0 (wRes w))
    subs := [], tLast := none, holdTs := some d.clk.now, thIn := {}, vhIn := {} }

/-- The coil models start again at 40.0 K (R431). -/
def Dev.initCoils (d : Dev) : Dev := d.each8 fin8 fun c d => d.onSol c fun s => { s with th := 640 * 65536, acc := 0, accN := 0 }

end Sys2Proof.Machine
end

