-- ==== Sys2Proof/Machine/Faults.lean ====
section
/-! DEFINITION. Faults: counting, escalation, shadows, records, reactions and their ends (15). -/

namespace Sys2Proof.Machine

/-! ## Shadow sets (R543, R544) -/

/-- Put a code into the shadow of an action, for one port, axis or channel or for all; a later end prevails. -/
def Dev.shadow1 (d : Dev) (why : Disturb) (sub : Option Nat) (until_ : Option Ts) (code : W16) : Dev :=
  let rest := d.flt.shadows.filter fun s => !(s.why == why && s.code == code && s.sub == sub) &&
    (match s.until_ with | none => true | some t => !atOrAfter d.clk.now t)
  { d with flt := { d.flt with shadows := ⟨why, code, sub, until_⟩ :: rest } }

/-- The detectors of an action's shadow set. -/
def Disturb.codes : Disturb → List W16
  | .strobes => [cVhLow, cReadbackMismatch, cStrobeGuard]
  | .media => [cAxisStall, cAxisJam, cMediaYank, cTickStalled]
  | .gates => [cAxisStall, cAxisJam, cWindingOpen, cReverseMotion, cMediaYank]
  | .domain => [cReadbackMismatch, cStrobeGuard, cTickOverrun, cTickStalled, cAxisStall]
  | .release => [cCoilOpen]

/-- Open the shadow of an action, to end n units from now or, with none, at a moment not yet known. -/
def Dev.shadow (d : Dev) (why : Disturb) (sub : Option Nat) (n : Option Nat) : Dev :=
  why.codes.foldl (fun d c => d.shadow1 why sub (n.map fun k => d.at_ k) c) d

/-- Give the open shadows of an action their end. -/
def Dev.closeShadow (d : Dev) (why : Disturb) (n : Nat) : Dev :=
  { d with flt := { d.flt with shadows := d.flt.shadows.map fun s =>
      if s.why == why && s.until_.isNone then { s with until_ := some (d.at_ n) } else s } }

/-- Whether a detector is in force in a shadow. -/
def Dev.shadowed (d : Dev) (code : W16) (sub : Nat) : Bool :=
  d.flt.shadows.any fun s => s.code == code && (match s.sub with | none => true | some n => n == sub) &&
    (match s.until_ with | none => true | some t => !atOrAfter d.clk.now t)

/-- Strobes of ports are forced off: the kill shadow of R543. -/
def Dev.shadowPorts (d : Dev) (ps : List (Fin 4)) : Dev := d.each4 ps fun p d => d.shadow .strobes (some p.val) (some (2 * ms))

/-! ## Conditions (R537) -/

/-- Codes whose chapter gives their condition an end: the degraded states of R553 hold to the reset. Every other
condition ends at detection. -/
def holds (c : W16) : Bool :=
  [cHeadOvertempHard, cHeadOvertempSoft, cVhLow, cHeadOpen, cPaperOut, cCoverOpen, cSensorBlind, cCoilHot, cStatusFull,
   cPllUnlock, cLinkDown, cPositionLost, cSliceFenced, cDelayMargin, cCellarWorn, cTwinMismatch].contains c

/-- The condition of a source has ended. -/
def Dev.endCond (d : Dev) (code : W16) (sub : Nat) : Dev :=
  { d with flt := { d.flt with active := d.flt.active.map fun r =>
      if r.code = code && r.sub = sub && r.condHeld then { r with condHeld := false, condTs := d.clk.now } else r } }

/-- Whether the condition of a source holds. -/
def Dev.condOn (d : Dev) (code : W16) (sub : Nat) : Bool := d.flt.active.any fun r => r.code == code && r.sub == sub && r.condHeld

/-! ## What a reaction does when it starts (R536 to R540, R38 to R40, R439) -/

/-- Whether the band in progress feeds a port. -/
def Dev.bandFeeds (d : Dev) (p : Nat) : Bool := match d.line.band with | some b => (rMask b.raw).testBit p | none => false

/-- A PAUSE at device or stack level. -/
def Dev.pauseDevice (d : Dev) (r : React) : Dev :=
  let moving := d.mot.travel == .planned
  let d := match d.mover with | some q => if moving then d.setWait q (some (r.code, r.seq)) else d | none => d
  let d := (d.stopBand r.code r.seq true).pauseMove
  if moving && d.mot.travel == .stopping then d.shadow .media none none else d

/-- A port-level PAUSE: it acts only on a band that feeds the port (R38). -/
def Dev.pausePort (d : Dev) (r : React) : Dev :=
  let moving := d.mot.travel == .planned
  let d := if d.bandFeeds r.port then d.stopBand r.code r.seq true else d
  let d := d.shadowPorts [fin4Of r.port]
  if moving && d.mot.travel == .stopping then d.shadow .media none none else d

/-- A STOP_PORT: the port's strobes stay off, and a band or a tasting run that uses the port is abandoned. -/
def Dev.stopPort (d : Dev) (r : React) : Dev :=
  let p := fin4Of r.port
  let d := (d.onHead p fun h => { h with stopped := true }).shadowPorts [p]
  let d := if d.bandFeeds r.port then d.abandonBand r.code r.seq .port else d
  match d.taste with
  | some t => if ((d.adm t.seq).map fun a => (rMask a.raw).testBit r.port).getD false then d.abandonTaste r.code r.seq .port else d
  | none => d

/-- Refuse the records admitted and not begun, BARRIERs and ZERO records apart (R26, R130, R536). -/
def Dev.refuseWaiting (d : Dev) (code : W16) (ref : W32) : Dev :=
  d.rings.admitted.foldl (init := d) fun d a =>
    if a.begun || a.zero || [0x00, 0x70, 0x40].contains (rType a.raw) || (d.line.band.map fun b => rSeq b.raw) = some (rSeq a.raw) ||
      d.mover = some (rSeq a.raw) then d
    else (if rType a.raw = 0x10 then d.dropBand a.raw (bFirst a.raw, 0) else d).refuse (rSeq a.raw) code ref

/-- The CUT under way that makes its stroke on AX3 or waits at rest is abandoned at once; one whose solenoid pulse
runs is abandoned after it; one whose media moves is abandoned at rest. -/
def Dev.abandonCut (d : Dev) (code : W16) (ref : W32) (lvl : Lvl) : Dev :=
  match d.media.cut with
  | none => d
  | some c =>
    if d.mot.travel != .rest then d.abandonMove code ref lvl
    else match d.run c.seq with
      | some r => if (d.sol.get r.ch).pulsing then d.onRun c.seq fun r => { r with stop := some (code, ref, lvl) }
                  else ({ d.freeRun r with media.cut := none }).close c.seq
                    { res := .abandoned, lvl := lvl, origin := d.originOf lvl, code := code, ref := ref,
                      result := d.cutResult c }
      | none => { d with media.cut := none }.close c.seq
          { res := .abandoned, lvl := lvl, origin := d.originOf lvl, code := code, ref := ref,
            result := d.cutResult c }

/-- Stop AX3 (R536): a stepper decelerates along its table, a DC axis is held (log entry 14). -/
def Dev.stopAux (d : Dev) : Dev :=
  let a := d.axes.d
  let d := { d with mot := { d.mot with auxTarget := none, auxBrake := false } }
  match a.segs with
  | [] => d.restAxis 3
  | s :: _ =>
    let d := (d.startSegs 3 (tens d.clk.now)).onAxis 3 fun a => Axis.nextSegs 200 { a with segs := auxStop (d.secBody d.mot.table) (s.vel a.lastU) s.fwd }
    if d.axes.d.segs.isEmpty then d.restAxis 3 else d

/-- A STOP_DEVICE: every record in progress is abandoned, every axis comes to rest, records not begun are refused. One that
a code of STOP_PORT severity has risen to holds that port's strobes off as well (R12). -/
def Dev.stopDevice (d : Dev) (r : React) : Dev :=
  let moving := d.mot.travel == .planned
  let d := if stopsPort r.code then (d.onHead (fin4Of r.sub) fun h => { h with stopped := true }).shadowPorts [fin4Of r.sub] else d
  let lvl : Lvl := if r.lvl == .stack then .stack else .device
  let d := d.abandonBand r.code r.seq lvl
  let d : Dev := match d.media.move with
    | some m =>
      if d.mot.travel != .rest then d.abandonMove r.code r.seq lvl
      else { d with media.move := none }.close m.seq
        { res := .abandoned, lvl := lvl, origin := d.originOf lvl, code := r.code, ref := r.seq,
          result := d.moveResult m }
    | none => d
  let d := (d.abandonCut r.code r.seq lvl).stopAux
  let d := d.abandonTaste r.code r.seq lvl
  let d := d.stopRuns r.code r.seq lvl
  let d := d.rings.admitted.foldl (init := d) fun (d : Dev) (a : Adm) =>
    if a.begun && rType a.raw = 0x50 then
      { d with cel.reads := d.cel.reads.filter fun x => x.1 ≠ rSeq a.raw }.close (rSeq a.raw)
        { res := .abandoned, lvl := lvl, origin := d.originOf lvl, code := r.code, ref := r.seq, result := d.adoptResult a.raw }
    else d
  let d := d.refuseWaiting r.code r.seq
  if moving && d.mot.travel == .stopping then d.shadow .media none none else d

/-- What MEDIA_YANK does to the work in progress: it is abandoned at device level and not resumed (R388). -/
def Dev.yankWork (d : Dev) (ref : W32) : Dev :=
  let d := if (d.line.band.map fun b => b.phase != .waiting).getD false then d.abandonBand cMediaYank ref .device else d
  let d : Dev := match d.media.move with
    | some m =>
      if d.mot.travel != .rest then d.abandonMove cMediaYank ref .device
      else { d with media.move := none }.close m.seq
        { res := .abandoned, lvl := .device, origin := d.pos, code := cMediaYank, ref := ref,
          result := d.moveResult m }
    | none => d
  d.abandonCut cMediaYank ref .device

/-- Start a reaction. Each level includes the stopping actions of the lower ones (R536). -/
def Dev.react (d : Dev) (r : React) : Dev :=
  match r.sev with
  | .note | .derate => d
  | .pause =>
    let d := if r.lvl == .port then d.pausePort r else d.pauseDevice r
    if r.code = cMediaYank then d.yankWork r.seq else d
  | .stopPort => d.stopPort r
  | .stopDevice => d.stopDevice r
  | .halt => d

/-! ## Raising (R539 to R549) -/

/-- Whether a tick is coming at which step 2 of R19 starts the reactions that wait for it: a band's next line, a boundary that
a record's forward travel completes. A member that has withheld its plan gets no further pulse (R39, R573). -/
def Dev.tickAhead (d : Dev) : Bool :=
  d.operating &&
  (d.mot.tickDue.isSome || (d.mover.isSome && d.mot.travel == .planned && d.axes.a.segs.any (·.tick)) ||
   (match d.line.band with
    | some b => b.phase == .firing && !d.endsHere b && !(d.link.planOwed && atOrAfter d.clk.now d.line.planned)
    | none => false))

/-- Start the reactions that wait for step 2 of a tick, in the order of their records: one that an earlier reaction of equal or
higher severity still holds back stays deferred (R19, R22, R548). -/
def Dev.startWaiting (d : Dev) : Dev :=
  (d.flt.active.filter (·.waits)).foldl (init := d) fun (d : Dev) (r : React) =>
    let later := d.flt.active.any fun x => x.started && r.sev.code ≤ x.sev.code && x.condHeld
    let now : List React := d.flt.active.map fun x => if x.seq = r.seq then { x with waits := false, started := !later } else x
    let d := { d with flt := { d.flt with active := now } }
    if later then d else d.react r

/-- Times of a source inside its window, latest first; a source without window counts from the last clearing. -/
def Dev.history (d : Dev) (key win : Nat) : List Ts :=
  let l := ((d.flt.hist.find? fun h => h.1 == key).map (·.2)).getD []
  if win = 0 then l else l.filter fun t => since d.clk.now t < win * ms

/-- Record a counted event. -/
def Dev.setHistory (d : Dev) (key : Nat) (l : List Ts) : Dev :=
  { d with flt := { d.flt with hist := (key, l.take 65535) :: d.flt.hist.filter fun h => h.1 ≠ key } }

/-- The earliest fault whose recovery is still in progress (R546). -/
def Dev.earliest (d : Dev) : W32 :=
  let rs := d.flt.active.filter (·.started)
  match rs with
  | [] => 0
  | r :: rest => rest.foldl (fun m x => if laterSeq m x.seq then x.seq else m) r.seq

/-- Scope byte of R152. -/
def Dev.scopeByte (d : Dev) (lvl : Lvl) (port : Nat) : Nat := lvl.code + 4 * (port % 4) + 16 * d.pos

/-- The detection goes out in an EVENT frame: from the driving half of a formed pair, and from any position with a
stack-level reaction of PAUSE or above (R570, R591). -/
def Dev.tellRing (d : Dev) (r : Rise) (sev : Sev) (lvl : Lvl) (flags : Nat) : Dev :=
  if !r.partner && (d.pairPrimary || (lvl == .stack && sev.code ≥ 2)) then
    d.sendEvent r.code sev.code (d.scopeByte lvl r.port) (flags + 8 * b2n r.job.isSome) (lineTickOf r.code r.detail) (r.job.getD (0, 0)).1 r.detail
  else d

/-- A HALT: outputs go to their reset levels, TWIN_OWN is released, and the safety reset begins (R518, R552, R595). -/
def Dev.halt (d : Dev) (r : Rise) (lvl : Lvl) (count : Nat) (related : W32) (escalated clock : Bool) : Dev :=
  let body := eventBody Sev.halt.code lvl r.port d.pos (r.job.getD (0, 0)).1 related count r.detail
  let d := if d.pairPrimary then d.sendEvent r.code 5 (d.scopeByte lvl r.port) 1 (lineTickOf r.code r.detail) 0 r.detail else d
  (d.safetyReset r.code (body ++ zeros (34 - body.length)) clock).haltFrame (16 * b2n escalated + 128 * b2n r.job.isSome) r.ports (r.job.getD (0, 0)).2

/-- Post the FAULT record of a counted event and let its reaction follow (R147, R152, R546 to R549). The record is made at
detection, as the worked example of 15 shows it; the reaction starts with step 2 of the next tick (log entry 34). -/
def Dev.fault (d : Dev) (r : Rise) (sev : Sev) (lvl : Lvl) (count : Nat) (escalated : Bool) : Dev :=
  let related := r.related.getD d.earliest
  if sev == .halt then d.halt r lvl count related escalated (r.code == cClkForced || r.code == cClkinLost) else
  let job := r.job.getD (0, 0)
  let flags := 16 * b2n escalated + 128 * b2n r.job.isSome
  let (seq, d) := d.make .fault 0x82 flags r.ports job.2 r.code d.clk.now d.clk.tickNo
    (eventBody sev.code lvl r.port (r.origin.getD d.pos) job.1 related count r.detail)
  let d := (d.tally r.code).tellRing r sev lvl (4 * b2n escalated)
  let d := { d with rings := { d.rings with openFaults := d.rings.openFaults ++ [seq] } }
  let d := if 2 ≤ sev.code then d.faultLow else d
  let own (x : React) : Bool := x.code == r.code && x.sub == r.sub
  -- a repeat at a higher severity starts the reaction of that severity (R511)
  if d.flt.active.any (fun x => own x && sev.code ≤ x.sev.code) && !escalated then
    let again (x : React) : React := if own x then { x with lastTs := d.clk.now, condHeld := x.condHeld || holds r.code } else x
    { d with flt := { d.flt with active := d.flt.active.map again } }
  else
    let d := if lvl == .stack then { d with link.origin := r.origin.getD d.pos } else d
    -- the boundary's tick does not come: what waits for it starts with the fault that says so
    let d := if r.code = cTickStalled then d.startWaiting else d
    let later := d.flt.active.any fun x => x.started && sev.code ≤ x.sev.code && x.condHeld
    -- at once above a lower reaction in force (R547), else with step 2 of the next tick (R19, R22), at once when none comes
    let waits := d.tickAhead && r.code ≠ cTickStalled && !(d.flt.active.any fun x => x.started && x.sev.code < sev.code)
    let n : React := { seq := seq, code := r.code, sub := r.sub, sev := sev, lvl := lvl, port := r.port, started := !later && !waits,
                       waits := waits, condHeld := holds r.code, condTs := d.clk.now, escalated := escalated, lastTs := d.clk.now }
    let d := { d with flt := { d.flt with active := (d.flt.active.map fun (x : React) => if own x then { x with lastTs := d.clk.now } else x) ++ [n] } }
    if later || waits then d else d.react n

/-- Codes of one half's own circuits (R591). -/
def ownCircuit (c : W16) : Bool :=
  [cSliceFenced, cDelayMargin, cSeqWatchdog, cClkForced, cPressFailed, cPressDisagree, cPllUnlock, cTwinMismatch, cLinkDown,
   cLinkResend, cTickSkew, cPositionLost].contains c

/-- Raise a happening: a report without severity, a shadowed event, a NOTE, or a fault with its reaction. Before
READY it waits until SESSION_START has been posted (R160, R517). A formed secondary records no detection of its own but
those of its own circuits (R591). -/
def Dev.raise (d : Dev) (r : Rise) : Dev :=
  if d.pairSecondary && !r.partner && !ownCircuit r.code then d
  else if !d.sys.ready && r.sev != some .halt then
    -- FAULT_N does not wait for the record (R157)
    let d := if (r.sev.map fun s => decide (2 ≤ s.code)).getD false then d.faultLow else d
    { d with sys.early := d.sys.early ++ [r] }
  else
  match r.sev with
  | none => d.report r
  | some sev =>
    let (n, win) := codeCount r.code
    let counted := sev != .note || n ≠ 0
    let key := sourceKey r.code r.sub
    let old := d.history key win
    if d.shadowed r.code r.sub then
      let d := d.tellRing r sev r.lvl 2
      (d.event r 8 (if counted then old.length else 0) sev.code .drop).2
    else if !counted then d.tellRing r sev r.lvl 0 |>.report r
    else
      let d := d.setHistory key (d.clk.now :: old)
      let count := min (old.length + 1) 65535
      let escalated := n ≠ 0 && d.scaledN n ≤ count
      let sev' := if escalated then sev.up r.lvl else sev
      let lvl := if escalated && (sev == .stopPort || r.lvl == .none) then .device else r.lvl
      if sev' == .note then (d.tellRing r sev r.lvl 0 |>.event r 0 count 0 .drop).2
      else d.fault r sev' lvl count escalated

/-- Raise a code with its table severity and scope. -/
def Dev.raiseCode (d : Dev) (code : W16) (sub : Nat) (detail : List Byte) : Dev :=
  d.raise { code := code, sub := sub, sev := codeSev code, lvl := codeLvl d code, job := d.bandJob, detail := detail }

/-- Raise a port's code: the scope and the record name the port. -/
def Dev.raisePort (d : Dev) (code : W16) (p : Fin 4) (detail : List Byte) : Dev :=
  d.raise { code := code, sub := p.val, sev := codeSev code, lvl := .port, port := p.val,
            job := if d.bandFeeds p.val then d.bandJob else none, ports := 2 ^ p.val, detail := detail }

/-- The sequence of the FAULT record that a detection is about to make, 0 when it is shadowed: the immediate action is
noted under it. -/
def Dev.nextRef (d : Dev) (code : W16) (sub : Nat) : W32 := if d.shadowed code sub || !d.sys.ready then 0 else d.rings.statusSeq

/-- A kill input acts on ports: the line under way is cut and damaged (R269, R282), strobes go inactive. The FAULT record that follows is the one that the damage is noted under. -/
def Dev.kill (d : Dev) (ps : List (Fin 4)) (code : W16) (sub : Nat) : Dev :=
  let d := d.damage ps code (d.nextRef code sub)
  let d := d.each4 ps fun p d => d.onHead p fun h => { h with strobes := 0, kills := if h.kills.contains code then h.kills else h.kills ++ [code] }
  d

/-- A kill input's own cause is released (R269). -/
def Dev.unkill (d : Dev) (ps : List (Fin 4)) (code : W16) : Dev :=
  d.each4 ps fun p d => d.onHead p fun h => { h with kills := h.kills.filter (· != code) }

/-! ## A pair that goes apart (R593, R594) -/

/-- Detail of block 0x0B records (16). -/
def twinDetail (cause node code lineTick slots resends value : Nat) : List Byte :=
  [BitVec.ofNat 8 cause, BitVec.ofNat 8 node] ++ leBytes 2 code ++ leBytes 6 lineTick ++
    [BitVec.ofNat 8 slots, BitVec.ofNat 8 (min resends 255)] ++ leBytes 4 value

/-- A formed pair dissolves: the primary posts TWIN_MISMATCH and goes on alone; the secondary stops following and holds
its outputs at high impedance (R593, R594). -/
def Dev.dissolve (d : Dev) (cause code lineTick value : Nat) : Dev :=
  let d := if d.pairPrimary then
      d.raise { code := cTwinMismatch, sev := some .derate, lvl := .device,
                detail := twinDetail cause (2 * d.pos + 1) code lineTick 0 0 value }
    else d
  { d with link := { d.link with formed := false, dissolved := true, queue := [], parts := [], changes := [], checks := [], echoed := [], lineCrcs := [] } }

/-! ## The end of a reaction (R536, R538, R547, R548) -/

/-- Whether a reaction holds work at its scope: as long as its condition does, deferred or not (R385, R548); a started one that
abandons work or has been escalated until its end. -/
def Dev.blocks (d : Dev) (r : React) : Bool :=
  2 ≤ r.sev.code && (r.condHeld || (r.started && (3 ≤ r.sev.code || (r.escalated && !d.past r.lastTs (1000 * ms)))))

/-- Whether the scope of a reaction covers a job record. -/
def React.covers (r : React) (raw : List Byte) : Bool := r.lvl != .port || (rMask raw).testBit r.port

/-- The reaction that holds a record back, the earliest one (R385, R536). -/
def Dev.heldBy (d : Dev) (raw : List Byte) : Option React :=
  d.flt.active.find? fun r => d.blocks r && r.covers raw

/-- Whether a device-level reaction of PAUSE or above is in force (R425). -/
def Dev.pausedBy (d : Dev) : Option React := d.flt.active.find? fun r => d.blocks r && r.lvl != .port

/-- Whether work stopped by PAUSE reactions is still stopped. -/
def Dev.workStopped (d : Dev) : Bool :=
  (match d.line.band with | some b => b.phase == .stopping || b.phase == .resting | none => false) ||
  (match d.media.move with | some m => m.paused | none => false) || d.mot.travel == .stopping || d.mot.travel == .returning

/-- Whether every axis is at rest. -/
def Dev.axesRest (d : Dev) : Bool := d.axes.toList.all fun a => !a.moving && a.segs.isEmpty
/-- Whether every axis has been at rest for n units. -/
def Dev.axesRestFor (d : Dev) (n : Nat) : Bool := d.axes.toList.all fun a => !a.moving && a.segs.isEmpty && (a.restTs == 0 || d.past a.restTs n)

/-- Whether the end rule of a reaction's own level holds now (R536, R538); a higher later reaction keeps it (R547). -/
def Dev.mayEnd (d : Dev) (r : React) : Bool :=
  r.started && !r.condHeld && (!r.escalated || d.past r.lastTs (1000 * ms)) &&
  !(d.flt.active.any fun x => x.started && laterSeq x.seq r.seq && r.sev.code < x.sev.code) &&
  (match r.sev with
   | .note | .derate => true
   | .pause => !d.workStopped
   | .stopPort => d.past r.condTs (100 * ms)
   | .stopDevice => d.past r.condTs (100 * ms) && d.axesRestFor (100 * ms)
   | .halt => false)

/-- Take a reaction out of force: gates held off by it are free again (R364, R404, R507). -/
def Dev.endReact (d : Dev) (r : React) : Dev :=
  let d := { d with flt := { d.flt with active := d.flt.active.filter fun x => x.seq ≠ r.seq } }
  if r.sev == .stopDevice && !(d.flt.active.any fun x => x.sev == .stopDevice) then
    { d with axes := d.axes.mapIdx fun _ a => { a with held := false } }
  else d

/-- End the DERATE and PAUSE reactions whose rules hold, and start the deferred ones whose turn has come (R548); with no tick
to come, those that wait for one as well (R19). -/
def Dev.settleReacts (d : Dev) : Nat → Dev
  | 0 => d
  | n + 1 =>
    let d := if d.tickAhead then d else d.startWaiting
    match d.flt.active.find? fun r => r.sev.code ≤ 2 && d.mayEnd r with
    | some r => (d.endReact r).settleReacts n
    | none =>
      match d.flt.active.find? fun r => !r.started && !r.waits &&
          !(d.flt.active.any fun x => x.started && laterSeq r.seq x.seq && r.sev.code ≤ x.sev.code && x.condHeld) with
      | none => d
      | some r =>
        let d := { d with flt := { d.flt with active := d.flt.active.map fun (x : React) => if x.seq = r.seq then { x with started := true } else x } }
        -- a reaction whose condition has ended by then ends at once (R548)
        if r.condHeld || r.code = cMediaYank then (d.react { r with started := true }).settleReacts n
        else if r.sev.code ≤ 2 then (d.endReact r).settleReacts n else (d.react { r with started := true }).settleReacts n

end Sys2Proof.Machine
end

