-- ==== Sys2Proof/Machine/Governor.lean ====
section
/-! DEFINITION. Head clock and currents, the estimator's store and the governor's plan of one line period (R189 to
R191, R238, R251 to R253, R261, R306 to R313, R575). -/

namespace Sys2Proof.Machine

/-! ## Head figures -/

/-- Spread depth of ST12 on the head clocks, in 1/1,000 (R53, R251). -/
def Dev.depth (d : Dev) : Nat := match d.spread with | 1 => 5 | 2 => 10 | _ => 0

/-- t_shift of a port in 20 ns units (R253): N periods of the lowest instantaneous head clock, the divider's ratio
rounded up to 1/65,536 (R251). -/
def Dev.tShift (d : Dev) (p : Fin 4) : Nat :=
  let b := d.pers.ports.get p
  let n := b.dots / max b.lanes 1
  let ratio := ceilDiv (800 * 65536 * (1000 + d.depth)) (max b.maxClk 1 * 1000)
  ceilDiv (n * ratio * 5000) (65536 * 80 * (1000 - d.depth))

/-- The greatest t_shift of some ports in 40 ns units, rounded up (R306). -/
def Dev.tShift40 (d : Dev) (ps : List (Fin 4)) : Nat := ps.foldl (fun m p => max m (ceilDiv (d.tShift p) 2)) 0

/-- D_b of a mask (R238). -/
def Dev.dotsOf (d : Dev) (mask : Nat) : Nat := (portsOf mask).foldl (fun n p => n + (d.pers.ports.get p).dots) 0

/-- P that the plan uses: in a formed pair the smaller of both halves' (R238). -/
def Dev.planSlices (d : Dev) : Nat :=
  let own := d.slicesIn
  match d.link.formed, d.link.partnerSlices with
  | true, some n => min own n
  | _, _ => own

/-- Press time of R238 in 40 ns units, rounded up. -/
def Dev.press40 (d : Dev) (mask : Nat) : Nat := ceilDiv (pressNs (d.dotsOf mask) d.planSlices) 40

/-- T_lead of R298 in 40 ns units. -/
def Dev.tLead (d : Dev) (mask : Nat) : Nat :=
  let shift := (portsOf mask).foldl (fun m p => max m (d.tShift p)) 0
  ceilDiv (4000 + pressNs (d.dotsOf mask) d.planSlices + 20 * shift + 80) 40

/-- Least dot resistance of a port in 0.5 ohm, unmeasured dots at the nominal figure (R197, R307). -/
def Dev.rMin (d : Dev) (p : Fin 4) (plan : Plan) : Nat :=
  let rs := ((d.heads.get p).dots.map fun x => wRes x.2).filter (· ≠ 0)
  let n := d.rNominal p plan
  if rs.length < (d.pers.ports.get p).dots then rs.foldl min n else rs.foldl min 4095

/-! ## The estimator -/

/-- The levels of a line by port and plane, physical dot 0 first (R165, R168, R175). -/
def rowsOf (dots : Quad Nat) (mask mode bits : Nat) (maps : Quad SegMap) (bytes : List Byte) : Quad (List (List Nat)) :=
  let parts := lineParts mask mode (maps.mapIdx fun _ m => m.back)
  let step (acc : List Byte × List (Fin 4 × Nat × List Nat)) (x : Fin 4 × Nat) : List Byte × List (Fin 4 × Nat × List Nat) :=
    let n := rowBytes (dots.get x.1) bits
    let l := rowLevels bits (dots.get x.1) (acc.1.take n)
    (acc.1.drop n, acc.2 ++ [(x.1, x.2, if (maps.get x.1).reversed then l.reverse else l)])
  let rows := (parts.foldl step (bytes, [])).2
  (Quad.all ()).mapIdx fun p _ => (rows.filter fun r => r.1 == p).map fun r => r.2.2

/-- Tone curve of plane i of a port (R212). -/
def toneFor (mode : Nat) (back : Bool) (t0 t1 : List Nat) (i : Nat) : List Nat :=
  if mode = 2 then (if back then t1 else t0) else if i = 0 then t0 else t1

/-- Target sums of a port's planes (R187, R213). -/
def targetsOf (mode : Nat) (back : Bool) (t0 t1 : List Nat) (dead : List W32) (planes : List (List Nat)) : List (List Nat) :=
  (planes.zipIdx).map fun (l, i) => planeTargets dead (toneFor mode back t0 t1 i) l

/-- Demand figures of line j of a BAND with its own maps, dead dots and curves (R189, R190, R193). -/
def Dev.demandLine (d : Dev) (raw : List Byte) (maps : Quad SegMap) (dead : Quad (List W32)) (t0 t1 : List Nat)
    (bytes : List Byte) (j : Nat) : DemandLine :=
  let rows := rowsOf d.portDots (rMask raw) (bPlane raw) (bBits raw) maps bytes
  { seq := rSeq raw, idx := j,
    figs := rows.mapIdx fun p planes =>
      if planes.isEmpty then none
      else some (demandOf (d.pers.ports.get p).ceiling (d.groupStarts p)
        (targetsOf (bPlane raw) (maps.get p).back t0 t1 (dead.get p) planes)) }

/-- Tone curve c of a media section (R210). -/
def toneOf (m : List Byte) (c : Nat) : List Nat := (List.range 16).map fun i => mTone m c i

/-- Take the figures of present lines of one band in line order, n lines at most, while the store of 1,024 has room
(R191). -/
def Dev.estimateFrom (d : Dev) (raw : List Byte) (maps : Quad SegMap) (dead : Quad (List W32)) (t0 t1 : List Nat)
    (base : W32 × Nat) : Nat → Nat → Dev
  | 0, _ => d
  | n + 1, j =>
    if bLines raw ≤ j || 1024 ≤ d.line.demand.length || !d.linePresent raw base j then d else
    let lb := d.bandBytes raw
    match d.stream (d.laterFirsts (rSeq raw)) 1000 base.1 (j * lb - base.2) lb with
    | none => d
    | some bytes =>
      let x := d.demandLine raw maps dead t0 t1 bytes j
      ({ d with line := { d.line with demand := d.line.demand ++ [x] } }).estimateFrom raw maps dead t0 t1 base n (j + 1)

/-- The line of a band after the last one held in the store. -/
def Dev.nextEstimate (d : Dev) (seq : W32) (least : Nat) : Nat :=
  (d.line.demand.filter fun x => x.seq == seq).foldl (fun m x => max m (x.idx + 1)) least

/-- The estimator takes every line that has become present, of the band in progress and of the next admitted BAND
(R189, R191, R192). -/
def Dev.estimate (d : Dev) : Dev :=
  let d := match d.line.band with
    | some b => d.estimateFrom b.raw b.maps b.dead b.tone0 b.tone1 b.base 1024 (d.nextEstimate (rSeq b.raw) b.next)
    | none => d
  let cur := d.line.band.map fun b => rSeq b.raw
  match d.rings.admitted.find? fun a => rType a.raw == 0x10 && some (rSeq a.raw) != cur && !a.zero with
  | some a =>
    if a.loadWait then d else
    let m := d.mediaSec a.media
    d.estimateFrom a.raw a.maps a.dead (toneOf m 0) (toneOf m 1) (bFirst a.raw, 0) 1024 (d.nextEstimate (rSeq a.raw) 0)
  | none => d

/-! ## Requirements of a line (R306, R307, R310, R575) -/

/-- A line of the window: of the band in progress or of one that follows it; a blank line of a lead_in has no
demand. -/
structure LineRef where
  raw : List Byte
  idx : Nat
  plan : Plan
  media : List Byte
  base : W32 × Nat
  blank : Bool
  maps : Quad SegMap := Quad.all {}
  dead : Quad (List W32) := Quad.all []
deriving DecidableEq, Repr

/-- The phase bound m of R307. -/
def Dev.phaseBound (d : Dev) (raw : List Byte) (plan : Plan) (x : DemandLine) : Nat :=
  let ps := portsOf (rMask raw)
  let on (p : Fin 4) : Nat := ((x.figs.get p).map (·.on)).getD 0
  let imax (p : Fin 4) : Nat := 20 * (((d.heads.get p).vhIn.value.getD 0).toNat + 100) / max (d.rMin p plan) 1
  let I := ps.foldl (fun s p => s + on p * imax p) 0
  let K := ceilDiv I (max (d.budget * 100) 1) - 1
  let K := ps.foldl (fun k p => if 0 < on p then k + (ceilDiv (on p) (max (d.pers.ports.get p).peakDots 1) - 1) else k) K
  let g := ps.foldl (fun n p => n + ((((x.figs.get p).map (·.groups)).getD []).filter (0 < ·)).length) 0
  max (min g (2 * K + 1)) 1

/-- Whether a ladder applies to the band in progress (R629). -/
def Dev.laddered (d : Dev) : Bool := d.bandMoves

/-- P_window of R306, R310: the least period whose window fits. -/
def windowTerm (l : Ladder) (lb : Nat) : Nat := l.per (l.D (min 1023 (975 * 4080 / max lb 1 - 1) - 1))

/-- The figures of a present line: those that the estimator's store holds, else the same ones taken from the line itself, since
they depend on nothing else (R193; DEDUCED, log entry 131). -/
def Dev.figures (d : Dev) (r : LineRef) : Option DemandLine :=
  if r.blank then none else
  (d.line.demand.find? fun x => x.seq == rSeq r.raw && x.idx == r.idx).orElse fun _ =>
    let n := d.bandBytes r.raw
    (d.stream (d.laterFirsts (rSeq r.raw)) 1000 r.base.1 (r.idx * n - r.base.2) n).map fun bytes =>
      d.demandLine r.raw r.maps r.dead (toneOf r.media 0) (toneOf r.media 1) bytes r.idx

/-- P_req of a line (R306). -/
def Dev.pReq (d : Dev) (l : Ladder) (lb : Nat) (r : LineRef) : Nat :=
  let ps := portsOf (rMask r.raw)
  let shift := d.tShift40 ps
  let press := 100 + d.press40 (rMask r.raw) + shift + 2
  let fig := d.figures r
  let durs := r.plan.dur.take r.plan.s
  let sum := ceilDiv (durs.foldl (· + ·) 0) 2
  let sum1 := ceilDiv ((durs.take (r.plan.s - 1)).foldl (· + ·) 0) 2
  let m := match fig with | some x => d.phaseBound r.raw r.plan x | none => 1
  let power := match fig with
    | some x => if mPower r.media = 0 then 0 else
        ps.foldl (fun k p => max k (ceilDiv (25 * ((x.figs.get p).map (·.energy)).getD 0) (mPower r.media))) 0
    | none => 0
  let dots := if r.blank then 0 else max (max (m * sum + 25) (m * sum1 + shift + 2)) (max press (if d.linkE = 0 then 0 else press + d.linkE))
  let p := max (max 1250 (pRate (rRate r.raw))) (max dots (max power (if d.laddered then windowTerm l lb else 0)))
  ceilDiv (p * (8 + d.line.derate)) 8

/-! ## The window (R311, R312) -/

/-- Lines without demand that a BAND's lead_in makes (R312); where no media moves under the band there are none (log
entry 22). -/
def Dev.leadLines (d : Dev) (raw : List Byte) : Nat := if d.bandMoves then ceilDiv (bLead raw) 64 else 0

/-- The lines that follow those of the band in progress: of each BAND decided to chain, its lead_in first. -/
def Dev.chainAt (d : Dev) : List W32 → Nat → Option LineRef
  | [], _ => none
  | s :: rest, j =>
    match d.adm s with
    | none => none
    | some a =>
      let m := d.mediaSec a.media
      let plan := planOf (d.secRaw (8 + bSlot a.raw))
      let lead := d.leadLines a.raw
      if j < lead then some ⟨a.raw, j, plan, m, (bFirst a.raw, 0), true, a.maps, a.dead⟩
      else if j - lead < bLines a.raw then some ⟨a.raw, j - lead, plan, m, (bFirst a.raw, 0), false, a.maps, a.dead⟩
      else d.chainAt rest (j - lead - bLines a.raw)

/-- Line j of a band. -/
def BandRt.ref (b : BandRt) (j : Nat) : LineRef := ⟨b.raw, j, b.plan, b.mediaCopy, b.base, false, b.maps, b.dead⟩

/-- Line j of the window, counted from line 0 of the band in progress. -/
def Dev.lineAt (d : Dev) (b : BandRt) (j : Nat) : Option LineRef :=
  if j < b.lines then some (b.ref j) else d.chainAt b.chains (j - b.lines)

/-- Lines of the band and of those that follow it. -/
def Dev.chainLines (d : Dev) (b : BandRt) : Nat :=
  b.chains.foldl (fun n s => match d.adm s with | some a => n + d.leadLines a.raw + bLines a.raw | none => n) b.lines

/-- The greatest line_bytes of the bands that the window reaches (R310). -/
def Dev.maxBytes (d : Dev) (b : BandRt) : Nat :=
  b.chains.foldl (fun n s => match d.adm s with | some a => max n (d.bandBytes a.raw) | none => n) (d.bandBytes b.raw)

/-- Whether every port that a band feeds has its inputs in force, its firing hold over: before that no line of the band is
examined (R307, R522). -/
def Dev.inputsThere (d : Dev) (raw : List Byte) : Bool :=
  (portsOf (rMask raw)).all fun p => let h := d.heads.get p; h.holdTs.isNone && h.thIn.value.isSome && h.vhIn.value.isSome

/-- Whether a line of the window is present and may be examined; the lines of a lead_in are always present. -/
def Dev.refThere (d : Dev) (r : LineRef) : Bool := d.inputsThere r.raw && (r.blank || d.linePresent r.raw r.base r.idx)

/-- R353: whether a later ladder may take over from an earlier one at a line boundary. -/
def ladderFollows (a : Ladder) (m : List Byte) (b : Ladder) (n : List Byte) : Bool :=
  a.lead == b.lead && eRatioS (mAxis m 1) == eRatioS (mAxis n 1) && eRatioS (mAxis m 2) == eRatioS (mAxis n 2) &&
    (List.range a.down.length).all (fun i => a.D (i + 1) ≤ b.D (i + 1)) && a.vTop ≤ b.vTop

/-- The ladder of a record that moves the media, with the media section it uses. -/
def Dev.ladderOf (d : Dev) (a : Adm) : Ladder := mkLadder (d.secBody (rRamp a.raw)) (leadOf (d.mediaSec a.media))

/-- The record that would follow the last of a band's chain: the next admitted record that moves the media, when it is
a BAND that begins without a wait of its own. -/
def Dev.chainNext (d : Dev) (last : W32) : Option Adm :=
  match d.rings.admitted.find? fun a => movesMedia (rType a.raw) && laterSeq (rSeq a.raw) last with
  | some a => if rType a.raw = 0x10 then some a else none
  | none => none

/-- Why the chain ends after its last band, with the detail of BAND_END_STOP, or the next band to follow (R312, R353). A band
whose ports have no inputs in force yet does not chain, with the cause of lines not present (R307; DESIGN CHOICE, log entry
132). c and w are the window; n the lines before the next band. -/
def Dev.chainTest (d : Dev) (b : BandRt) (last : W32) (c w n : Nat) : Except (Nat × W32) Adm :=
  match d.chainNext last with
  | none => .error (0, 0)
  | some a =>
    if a.loadWait || a.zero || !d.inputsThere a.raw then .error (1, rSeq a.raw) else
    let lead := d.leadLines a.raw
    let reach := (c + w) - n
    let there := (List.range (min (reach - lead) (bLines a.raw))).all fun i => d.linePresent a.raw (bFirst a.raw, 0) i
    -- R353 compares with the band before it, the last of the chain
    let (before, media) : Ladder × List Byte := match b.chains.getLast?.bind d.adm with
      | some e => (d.ladderOf e, d.mediaSec e.media)
      | none => (b.ladder, b.mediaCopy)
    if !there then .error (1, rSeq a.raw)
    else if d.laddered && !ladderFollows before media (d.ladderOf a) (d.mediaSec a.media) then .error (2, rSeq a.raw)
    else .ok a

/-- Decide the chain while the window reaches past its last line (R312); fuel bounds the bands that can follow. tick is the number of
the tick during whose period the decision is made. -/
def Dev.decideChain (d : Dev) (c w : Nat) : Nat → Dev
  | 0 => d
  | k + 1 =>
    match d.line.band with
    | none => d
    | some b =>
      let n := d.chainLines b
      if b.endDecided || c + w ≤ n then d else
      let last := b.chains.getLastD (rSeq b.raw)
      match d.chainTest b last c w n with
      | .ok a => ({ d with line := { d.line with band := some { b with chains := b.chains ++ [rSeq a.raw] } } }).estimate.decideChain c w k
      | .error (cause, nxt) =>
        let lr := ((d.adm last).map (·.raw)).getD b.raw
        let d := d.report {
          code := cBandEndStop, job := rJob lr, ports := rMask lr
          detail := leBytes 6 d.clk.tickNo.toNat ++ leBytes 4 ((if b.chains.isEmpty then b.lines else bLines lr) - 1) ++ leBytes 4 nxt.toNat ++ [BitVec.ofNat 8 cause] }
        -- a later band that fails R353 only is deferred to rest (R354)
        let d := if cause = 2 then d.onAdm nxt fun a => { a with deferred := true } else d
        { d with line := { d.line with band := some { b with endDecided := true } } }

/-! ## The commit (R311, R313) -/

/-- First line of the window that is not present. -/
def Dev.firstMissing (d : Dev) (b : BandRt) (c n : Nat) : Nat → Option Nat
  | 0 => none
  | k + 1 => if n ≤ c then none else
    match d.lineAt b c with
    | none => none
    | some r => if d.refThere r then d.firstMissing b (c + 1) n k else some c

/-- The period that the window's lines from j on ask of the line that lies i lines before line j, from p on (R311). -/
def Dev.windowMax (d : Dev) (b : BandRt) (lb : Nat) : Nat → Nat → Nat → Nat → Nat
  | 0, _, _, p => p
  | k + 1, i, j, p =>
    match d.lineAt b j with
    | none => p
    | some r => d.windowMax b lb k (i + 1) (j + 1) (max p (b.ladder.pdec i (d.pReq b.ladder lb r)))

/-- What a commit answers: a period and whether the line ends at rest; or that the window is not present, with the
first missing line. -/
inductive Commit where
  | go (p : Nat) (rest : Bool)
  | missing (j : Nat)
  | none
deriving DecidableEq, Repr

/-- The first period and the window of R311 for a line r after a line of period prev: p and w. -/
def Dev.firstPeriod (d : Dev) (l : Ladder) (lb prev : Nat) (r : LineRef) : Nat × Nat :=
  let p := max (if d.laddered then l.pAcc prev else 0) (d.pReq l lb r)
  (p, max 64 ((if d.laddered then l.nstop p else 1) + 1))

/-- The commit for a line r, which lies lead lines before line c of the band in progress, after a line of period prev, 0 from
rest (R311, R312, R629). The bands that the window reaches first are decided, then it is formed with the greatest of their
line_bytes (R310; DEDUCED, log entry 133). -/
def Dev.commitRef (d : Dev) (r : LineRef) (lead c prev : Nat) : Dev × Commit :=
  match d.line.band with
  | none => (d, .none)
  | some b =>
    let l := b.ladder
    let d := d.decideChain c ((d.firstPeriod l (d.maxBytes b) prev r).2 - lead) (d.rings.admitted.length + 1)
    match d.line.band with
    | none => (d, .none)
    | some b =>
      let lb := d.maxBytes b
      let (p, w) := d.firstPeriod l lb prev r
      let n := d.chainLines b
      match d.firstMissing b c (min n (c + (w - lead))) w with
      | some j => (d, .missing j)
      | none =>
        if !d.laddered then (d, .go p false) else
        -- the line itself is r; those after it follow from c, or with no lead from c + 1
        let p := if lead = 0 then d.windowMax b lb (w - 1) 1 (c + 1) p else d.windowMax b lb (w - lead) lead c p
        let rem := n + lead - (c + 1)
        if !b.endDecided then (d, .go p false)
        else if rem = 0 then (d, .go p true)
        else (d, .go (max p (l.per (l.D rem))) false)

/-- The commit for line c of the band in progress. -/
def Dev.commit (d : Dev) (c prev : Nat) : Dev × Commit :=
  match d.line.band.bind fun b => d.lineAt b c with
  | none => (d, .none)
  | some r => d.commitRef r 0 c prev

/-- Period of the line that ends m lines before the rest boundary of a stop plan from speed v over n lines (R313). -/
def Ladder.stopPer (l : Ladder) (v n m : Nat) : Nat := l.per (min (l.D m) (isqrt (v * v * m / max n 1)))

/-- The derate step at a commit (R308). -/
def Dev.derateStep (d : Dev) : Dev :=
  let soft := d.heads.toList.any (·.soft)
  let l := d.line
  let n := l.derateCount + 1
  if soft && !l.derateOn then { d with line := { l with derate := min 24 (l.derate + 1), derateOn := true, derateCount := 0 } }
  else if soft then
    { d with line := { l with derate := if n = 64 then min 24 (l.derate + 1) else l.derate, derateCount := n % 64 } }
  else if l.derateOn then { d with line := { l with derateOn := false, derateCount := 1 } }
  else if l.derate = 0 then { d with line := { l with derateCount := 0 } }
  else { d with line := { l with derate := if n = 64 then l.derate - 1 else l.derate, derateCount := n % 64 } }

end Sys2Proof.Machine
end

