-- ==== Sys2Proof/Machine/Firing.lean ====
section
/-! DEFINITION. A band from its start to its rest: the inputs in force, the press of its next line, starts and
resumes, the line that begins at a tick, and the travel planned behind it (R14, R195 to R206, R271 to R280, R295 to
R300, R311 to R319). -/

namespace Sys2Proof.Machine

/-! ## Samples (R271 to R278, R318, R319) -/

/-- R25 and B of a port's thermistor (R271). -/
def Dev.therm (d : Dev) (p : Fin 4) : Nat × Nat := match d.card p with | some c => (le c 0x20 2, le c 0x22 2) | none => (3000, 3950)
/-- Temperature of a reading on a port. -/
def Dev.tempOf (d : Dev) (p : Fin 4) (c : Adc) : Int := let (r, b) := d.therm p; codeTemp c.toNat r b
/-- The hard limit of a port (R274). -/
def Dev.hardLimit (d : Dev) (p : Fin 4) : Int := let (r, b) := d.therm p; hardLimitTemp r b
/-- vh_min of a port in 10 mV (R278). -/
def Dev.vhMin (d : Dev) (p : Fin 4) : Nat := match d.card p with | some c => le c 0x1A 2 | none => 800

/-- INPUT_STEP (R319); from_ is the tick of the set, none for a start set. -/
def Dev.inputStep (d : Dev) (p : Fin 4) (q : Nat) (v : Int) (tick : Nat) (ts : Ts) : Dev :=
  d.report { code := cInputStep, ports := 2 ^ p.val, detail := [BitVec.ofNat 8 p.val, BitVec.ofNat 8 q] ++ sBytes 2 v ++ leBytes 6 tick ++ leBytes 6 ts.toNat }

/-- Set one input in force and report it. -/
def Dev.setInput (d : Dev) (p : Fin 4) (q : Nat) (v : Int) (tick : Nat) (ts : Ts) : Dev :=
  let f : InForce := { value := some v }
  (d.onHead p fun h => if q = 0 then { h with thIn := f } else { h with vhIn := f }).inputStep p q v tick ts

/-- Set both inputs of some ports from a sample set (R318): the first after a reset, a start or a resume set. -/
def Dev.setInputs (d : Dev) (ps : List (Fin 4)) (s : SampleSet) (tick : Nat) (ts : Ts) : Dev :=
  d.each4 ps fun p d =>
    (d.setInput p 0 (d.tempOf p (s.th.get p)) tick ts).setInput p 1 (vhOf (s.vh.get p).toNat) tick ts

/-- One input against a new reading: four consecutive differing sample sets in one direction change it (R318). -/
def InForce.next (f : InForce) (v : Int) (step : Int) : InForce × Bool :=
  match f.value with
  | none => (f, false)
  | some x =>
    let up := decide (x < v)
    if (v - x).natAbs < step.natAbs then ({ f with run := 0 }, false)
    else
      let run := if f.run = 0 || f.up == up then f.run + 1 else 1
      if run = 4 then ({ value := some v }, true) else ({ f with run := run, up := up }, false)

/-- The inputs of every fitted port against a tick sample set. -/
def Dev.stepInputs (d : Dev) (s : SampleSet) : Dev :=
  d.each4 (fin4.filter d.portOn) fun p d =>
    let t := d.tempOf p (s.th.get p)
    let v : Int := vhOf (s.vh.get p).toNat
    let (a, ca) := (d.heads.get p).thIn.next t 4
    let (b, cb) := (d.heads.get p).vhIn.next v 5
    let d := d.onHead p fun h => { h with thIn := a, vhIn := b }
    let d := if ca then d.inputStep p 0 t d.clk.tickNo.toNat d.clk.tickTs else d
    if cb then d.inputStep p 1 v d.clk.tickNo.toNat d.clk.tickTs else d

/-- line_tick of a fault that keeps the next line of a band that feeds the port from beginning, none without such a line
(R282). -/
def Dev.unbegunTick (d : Dev) (p : Fin 4) : Nat := if d.bandFeeds p.val then d.nextLineTick else noTick

/-- THERMISTOR_FAULT on a reading (R272); its value and limit are codes, the unit of the limits crossed (log entry 29). -/
def Dev.checkTherm (d : Dev) (p : Fin 4) (c : Adc) : Dev :=
  if c.toNat < 20 || 4013 < c.toNat then
    if (d.heads.get p).thFault then d else
    let d := d.onHead p fun h => { h with thFault := true }
    d.raisePort cThermistorFault p (headDetail (d.unbegunTick p) 0 0 c.toNat (if c.toNat < 20 then 20 else 4013) 0)
  else d.onHead p fun h => { h with thFault := false }

/-- HEAD_OVERTEMP_SOFT by a sample set, against the soft_limit of the band's media section, with no band of the current
one (R273). It stops no line, so it names none (R282). -/
def Dev.checkSoft (d : Dev) (p : Fin 4) (c : Adc) : Dev :=
  let t := d.tempOf p c
  let lim := mSoft (match d.line.band with | some b => b.mediaCopy | none => d.curMedia)
  let h := d.heads.get p
  if lim ≤ t && !h.soft then
    (d.onHead p fun h => { h with soft := true }).raisePort cHeadOvertempSoft p (headDetail noTick 0 0 t lim 0)
  else if h.soft && t ≤ lim - 16 then (d.onHead p fun h => { h with soft := false }).endCond cHeadOvertempSoft p.val
  else d

/-- Whether VH_LOW is evaluated now (R280). -/
def Dev.vhEvaluated (d : Dev) : Bool :=
  !d.sys.hmeas && (match d.sys.hmeasFallTs with | none => true | some t => d.past t (2 * ms))

/-- VH_LOW by a sample set (R278): the line computed from that set does not begin. Inside a shadow it is only recorded, so a
later set below the limit is judged anew (R544). -/
def Dev.checkVh (d : Dev) (p : Fin 4) (c : Adc) : Dev :=
  let v := vhOf c.toNat
  if d.vhEvaluated && v < d.vhMin p && (d.heads.get p).vhLow.isNone then
    (if d.shadowed cVhLow p.val then d else d.onHead p fun h => { h with vhLow := some 0 }).raisePort cVhLow p
      (headDetail (d.unbegunTick p) 0 0 v (d.vhMin p) 0)
  else d

/-- What every sample set brings: the raw codes, and the checks of each fitted port in ascending order. -/
def Dev.takeSet (d : Dev) (s : SampleSet) : Dev :=
  let d := d.each4 (fin4.filter d.portOn) fun p d => d.onHead p fun h => { h with rawTh := s.th.get p, rawVh := s.vh.get p }
  d.each4 (fin4.filter d.portOn) fun p d => ((d.checkTherm p (s.th.get p)).checkSoft p (s.th.get p)).checkVh p (s.vh.get p)

/-! ## The press of a line -/

/-- The class tables and tone curves a port uses, plane 0 first (R212). -/
def classesFor (mode : Nat) (back : Bool) (p : Plan) : List (List Nat) :=
  if mode = 2 then [if back then p.class1 else p.class0] else [p.class0, p.class1]

/-- Dots of a line that each slice holds: the slices in service share the dots evenly, the lower-numbered taking the
odd ones (R238, R245; log entry 15). -/
def Dev.shares (d : Dev) (n : Nat) : List Nat :=
  let on := fin4.filter fun k => let s := d.line.slices.get k; !s.fenced && !s.withdrawn
  let m := on.length
  fin4.map fun k => match on.findIdx? (· == k) with | some i => n / max m 1 + (if i < n % max m 1 then 1 else 0) | none => 0

/-- MODEL_SATURATED for one port of a band, once per band and port (R233). The spec does not say whether a line that is computed
and then discarded (R201) counts: it is posted when the line is computed, and counts (DESIGN CHOICE, log entry 122). -/
def Dev.satNote (d : Dev) (b : BandRt) (p : Fin 4) (dot : Nat) : Dev × BandRt :=
  if b.satPosted.getLsbD p.val then (d, b) else
  (d.raise { code := cModelSaturated, sev := some .note, job := rJob b.raw, ports := 2 ^ p.val,
             detail := pressDetail 0xFF 0 0 d.slicesIn p.val dot b.next },
   { b with satPosted := b.satPosted ||| BitVec.ofNat 4 (2 ^ p.val) })

/-- What the press answers for the next line of a band, by port (R195 to R231); planned is its planned tick time
(R216). -/
def Dev.pressLine (d : Dev) (b : BandRt) (planned : Ts) (bytes : List Byte) : Quad (Option PressOut) :=
  let mode := bPlane b.raw
  let rows := rowsOf d.portDots (rMask b.raw) mode (bBits b.raw) b.maps bytes
  rows.mapIdx fun p planes =>
    if planes.isEmpty then none else
    let h := d.heads.get p
    let back := (b.maps.get p).back
    let dead := b.dead.get p
    let levels := planes.map fun l => (l.zipIdx).map fun (v, i) => if dead.any (fun e => eDot e == i) then 0 else v
    some (pressPort b.plan (b.ceilings.get p) (d.rNominal p b.plan) (h.vhIn.value.getD 0).toNat (h.thIn.value.getD 0)
      (h.tLast.map fun t => since planned t) (b.next == 0) (d.dotWords p) h.subs
      (asks (classesFor mode back b.plan) (targetsOf mode back b.tone0 b.tone1 dead planes) levels))

/-- Compute the next line of a band into the pending buffer (R200). -/
def Dev.pressBand (d : Dev) (b : BandRt) (planned : Ts) : Dev × BandRt :=
  let n := d.bandBytes b.raw
  match d.stream (d.laterFirsts (rSeq b.raw)) 1000 b.base.1 (b.next * n - b.base.2) n with
  | none => (d, b)
  | some bytes =>
    let outs := d.pressLine b planned bytes
    let results : Quad (Option PortOut) := outs.mapIdx fun _ o => o.map PressOut.out
    let trimmed := outs.toList.any fun (o : Option PressOut) => (o.map fun x => x.trimmed).getD false
    let pn : PendLine := { seq := rSeq b.raw, idx := b.next, outs := results, planned := planned, complete := false,
                           trimmed := trimmed, vh := d.heads.mapIdx fun _ h => (h.vhIn.value.getD 0).toNat, share := d.shares (d.dotsOf (rMask b.raw)) }
    let d := { d with line := { d.line with pend := some pn, shiftDone := false } }
    fin4.foldl (init := (d, b)) fun (x : Dev × BandRt) (p : Fin 4) =>
      match ((outs.get p).map (·.saturated)).join with
      | some dot => x.1.satNote x.2 p dot
      | none => x

/-- Compute the next line of the band in progress. -/
def Dev.pressNext (d : Dev) (planned : Ts) : Dev :=
  match d.line.band with
  | none => d
  | some b =>
    let (d, b') := d.pressBand b planned
    { d with line := { d.line with band := d.line.band.map fun x => { x with satPosted := b'.satPosted } } }

/-! ## A band from admission to its start -/

/-- What a band takes from its sections: its own copies at its first line, until then their present content (R206,
R334). -/
def Dev.copies (d : Dev) (b : BandRt) : BandRt :=
  let m := d.mediaSec b.media
  { b with plan := planOf (d.secRaw (8 + bSlot b.raw)), mediaCopy := m, tone0 := toneOf m 0, tone1 := toneOf m 1,
           ceilings := d.pers.ports.mapIdx fun _ p => p.ceiling,
           ladder := if d.bandMoves then mkLadder (d.secBody (rRamp b.raw)) (leadOf m) else {} }

/-- A BAND whose turn has come becomes the band in progress (R17). -/
def Dev.takeBand (d : Dev) (a : Adm) : Dev :=
  let b : BandRt := d.copies { raw := a.raw, media := a.media, maps := a.maps, dead := a.dead, base := (bFirst a.raw, 0) }
  { d with line := { d.line with band := some b }, mot.table := rRamp a.raw }.estimate

/-- Whether every port of a band may fire: its hold is over, its inputs are in force and no STOP_PORT holds it (R307,
R521, R522). -/
def Dev.portsReady (d : Dev) (raw : List Byte) : Bool :=
  (portsOf (rMask raw)).all fun p =>
    let h := d.heads.get p
    h.holdTs.isNone && h.thIn.value.isSome && h.vhIn.value.isSome && !h.stopped

/-- What was decided about a band's end stands at its start or resume, unless a band that was to follow is gone (R312). -/
def Dev.keepChain (d : Dev) (b : BandRt) : BandRt :=
  let kept := b.chains.takeWhile fun s => (d.adm s).isSome
  { b with endDecided := b.endDecided && kept.length == b.chains.length, chains := kept, restAfter := none }

/-- Whether the window of the commit that a start from rest makes is present, with the bands decided to follow (R311, R314). -/
def Dev.windowThere (d : Dev) (b : BandRt) : Bool :=
  match ({ d with line.band := some (d.keepChain (if b.next = 0 then d.copies b else b)) }.commit b.next 0).2 with
  | .go _ _ => true
  | _ => false

/-- In WIDE and TANDEM mode, while any position is in Doze no band line and no media move begins (R581). -/
def Dev.stackDozes (d : Dev) : Bool := 2 ≤ d.mode && d.link.nodes.any fun n => n.2.state == 4

/-- Whether a band at rest may start or resume now. -/
def Dev.bandMayStart (d : Dev) (b : BandRt) : Bool :=
  d.awake && (d.heldBy b.raw).isNone && (d.taste.map fun t => t.stage == 3).getD true && d.mot.travel == .rest && d.line.fire.isNone &&
    (match d.sys.hmeasFallTs with | none => !d.sys.hmeas | some t => d.past t (2 * ms)) && d.portsReady b.raw && d.windowThere b &&
    !d.stackDozes && !d.plansMissing && (b.phase != .resting || atOrAfter d.clk.now b.pauseStart)

/-- The samples of R398 are counted anew with each record that moves the media. -/
def Dev.restartMeans (d : Dev) : Dev := { d with sense := d.sense.mapIdx fun _ s => { s with accSum := 0, accN := 0 } }

/-- The start sample set of a start from rest begins, after 2 ms when axes must be energised first (R298, R363). The
period of the first line is committed (R311, R314). -/
def Dev.startBand (d : Dev) : Dev :=
  match d.line.band with
  | none => d
  | some b =>
    let b := d.keepChain (if b.next = 0 then d.copies b else b)
    let d := { d with line := { d.line with band := some { b with phase := .starting } } }
    let wait := d.bandMoves && d.needsEnergising b.mediaCopy
    let d := if d.bandMoves then d.energiseGroup b.mediaCopy else d
    let d := if b.next = 0 then d.restartMeans else d
    let (d, c) := d.derateStep.commit b.next 0
    match c with
    | .go p rest => { d with line := { d.line with nextPeriod := p, nextRest := rest, startTs := some (d.at_ (if wait then 2 * ms else 0)) } }
    | _ => { d with line := { d.line with startTs := some (d.at_ (if wait then 2 * ms else 0)) } }

/-! ## Travel under a band -/

/-- Plan the travel of line c with its committed period; under encoder ticks a line that ends at rest short of its
boundary stops 1/4 line before it (R313, R343). short says so. -/
def Dev.travelLine (d : Dev) (p : Nat) (rest short : Bool) (dist : Nat) : Dev :=
  if !d.bandMoves then d else d.addLine p (if rest && short && d.tickSource = 1 then dist - 16 else dist) rest true

/-- The length of a line of travel of the window: the first part of a lead_in may be shorter than a line. -/
def LineRef.dist (r : LineRef) : Nat := if r.blank && r.idx = 0 && bLead r.raw % 64 ≠ 0 then bLead r.raw % 64 else 64

/-- The index within its own band of line j of the window, 0 for a line of its lead_in, and the band's record. -/
def Dev.indexOf (d : Dev) (b : BandRt) (j : Nat) : List Byte × Nat :=
  match d.lineAt b j with | some r => (r.raw, if r.blank then 0 else r.idx) | none => (b.raw, j)

/-- DATA_LATE of a stop that rests before line r of the window, line j missing: it names the band that r lies in, each index
within its line's own band (R313; DEDUCED, log entry 134). -/
def Dev.dataLate (d : Dev) (b : BandRt) (r j : Nat) : Dev :=
  let (raw, i) := d.indexOf b r
  d.report {
    code := cDataLate, job := rJob raw, ports := rMask raw
    detail := leBytes 6 d.clk.tickNo.toNat ++ leBytes 4 i ++ leBytes 4 (if j = 0xFFFFFFFF then j else (d.indexOf b j).2) }

/-- The stop plan, committed with line c after a line of period prev (R313): DATA_LATE with the first missing line, or with
none of its own. -/
def Dev.stopPlan (d : Dev) (c prev : Nat) (j : Nat) : Dev :=
  match d.line.band with
  | none => d
  | some b =>
    let n := if d.laddered then b.ladder.nstop prev else 1
    let v := b.ladder.speed prev
    let d := { d with line.band := some { b with restAfter := some ((c + n : Nat) : Int), restFrom := (v, n), pauseCause := cDataLate, pauseRef := 0 } }
    let d := d.dataLate b (c + n) j
    let p := if d.laddered then (if n = 1 then prev else b.ladder.stopPer v n (n - 1)) else d.pReq b.ladder (d.bandBytes b.raw) (b.ref c)
    let d := { d with line := { d.line with nextPeriod := p, nextRest := n == 1 } }
    d.travelLine p (n == 1) true 64

/-- Commit the period of line c and plan its travel, after a line of period prev (R311 to R313). At the stop plan no
line after its rest boundary is committed. -/
def Dev.commitLine (d : Dev) (c prev : Nat) : Dev :=
  match d.line.band with
  | none => d
  | some b =>
    match b.restAfter with
    | some r =>
      if r ≤ (c : Int) then d else
      let (v, n) := b.restFrom
      let m := (r - (c + 1)).toNat
      let d := { d with line := { d.line with nextPeriod := if m = 0 then prev else b.ladder.stopPer v n m, nextRest := m == 0 } }
      d.travelLine d.line.nextPeriod (m == 0) true 64
    | none =>
      let d := d.derateStep
      match d.commit c prev with
      | (d, .go p rest) =>
        let dist := match d.line.band with | some b => ((d.lineAt b c).map (·.dist)).getD 64 | none => 64
        { d with line := { d.line with nextPeriod := p, nextRest := rest, band := d.line.band.map fun (x : BandRt) => { x with lacks := none } } }.travelLine p
          rest false dist
      | (d, .missing j) =>
        -- at a member the plan goes to the master, which commits the stop plan for all (R577)
        if !d.isMember then d.stopPlan c prev j
        else { d with line := { d.line with
                nextPeriod := d.pReq b.ladder (d.bandBytes b.raw) (b.ref c)
                nextRest := false, band := d.line.band.map fun (x : BandRt) => { x with lacks := some j } } }
      | (d, .none) => d

/-- Plan one more line of a band's lead_in, and behind its end the travel of line 0 (R295, R300). The first line is
computed once its tick's time is planned. -/
def Dev.leadStep (d : Dev) : Dev :=
  match d.line.band with
  | none => d
  | some b =>
    if b.phase != .firing || b.next ≠ 0 || !d.bandMoves then d else
    let g := d.mot
    let left := (b.pos0 - g.bound).toNat
    if 0 < left then
      let dist := if left % 64 ≠ 0 then left % 64 else 64
      let k := ceilDiv left 64
      let go (d : Dev) (p : Nat) (rest : Bool) : Dev :=
        let d := d.addLine p dist rest false
        let d := { d with line.planned := d.line.planned + BitVec.ofNat 48 d.mot.per }
        if left ≤ 64 && !rest then d.pressNext d.line.planned else d
      match b.restAfter with
      -- a stop plan that the band before it began (R312, R313)
      | some r =>
        if r ≤ -(k : Int) then d else
        let m := (r + k - 1).toNat
        go d (if m = 0 then g.per else b.ladder.stopPer b.restFrom.1 b.restFrom.2 m) (m == 0)
      | none =>
        match d.commitRef { b.ref 0 with blank := true } k 0 g.per with
        | (d, .go p _) => go d p false
        | (d, .missing j) => (d.dataLate b 0 j).stopBand cDataLate 0 true
        | (d, .none) => d
    else if left = 0 && g.bound = b.pos0 then
      match b.restAfter with
      | some _ => d.commitLine 0 g.per
      | none =>
        match d.derateStep.commit 0 g.per with
        | (d, .go p rest) => { d with line := { d.line with nextPeriod := p, nextRest := rest } }.travelLine p rest false 64
        | (d, .missing j) => (d.dataLate b 0 j).stopBand cDataLate 0 true
        | (d, .none) => d
    else d

/-- The shift registers of every port hold an unknown plane (R266). -/
def Dev.forgetPlanes (d : Dev) : Dev := { d with heads := d.heads.mapIdx fun _ h => { h with shiftReg := none } }

/-- The start or resume sample set has been taken (R298 to R300, R203): the line is computed from it for its start
time; with a lead_in, and under encoder ticks, the travel begins. -/
def Dev.started (d : Dev) (t0 : Ts) : Dev :=
  match d.line.band with
  | none => d
  | some b =>
    let moves := d.bandMoves
    let enc := d.tickSource = 1
    let first := decide (b.next = 0)
    -- the boundary of line 0, set when the band first starts
    let b := if first && b.firstTs = 0 && b.waitPeriod = 0 then { b with pos0 := d.mot.bound + (if bLead b.raw = 0 then d.behind else (bLead b.raw : Int)), waitPeriod := pRate (rRate b.raw) } else b
    let left := (b.bound b.next - d.behind) - d.mot.bound
    let d := { d with line := { d.line with startTs := none, band := some { b with phase := .firing } } }
    let start := t0 + BitVec.ofNat 48 (d.tLead (rMask b.raw))
    -- no port has fired a line since: the first shift compares nothing (R266, log entry 123)
    let d := d.forgetPlanes
    let d := if moves then d.startGroup b.mediaCopy b.ladder true (rRate b.raw) else d
    if moves && first && 0 < left then
      let d := { d with line.planned := d.clk.now }
      (d.leadStep).leadStep
    else
      let d := { d with line := { d.line with planned := start, band := d.line.band.map fun (x : BandRt) => { x with fromRest := true } } }
      let d := d.pressNext start
      if moves && enc then
        -- the quarter line before the boundary, in the time that the ramp table takes to cover it (log entry 16)
        let d := (d.startSegs 0 (tens start - BitVec.ofNat 50 b.ladder.quarter)).addLine (ceilDiv b.ladder.quarter 4) 16 false true
        d.travelLine d.line.nextPeriod d.line.nextRest false 64
      else (if moves then d.startSegs 0 (tens start) else d).travelLine d.line.nextPeriod d.line.nextRest false 64

/-! ## The line that begins at a tick -/

/-- TICK_OVERRUN: the line does not begin, and the band stops (R15, R316). -/
def Dev.overrun (d : Dev) : Dev :=
  d.raise { code := cTickOverrun, sev := some .pause, lvl := .device, job := d.bandJob, ports := match d.line.band with | some b => rMask b.raw | none => 0,
            detail := headDetail (d.clk.tickNo + 1).toNat 0 0 0 0 0 }

/-- Commit a port's pending results at the tick (R199, R200, R205, R554). -/
def Dev.commitPort (d : Dev) (ts : Ts) (p : Fin 4) (o : PortOut) : Dev :=
  let h := d.heads.get p
  let e := h.energy + o.energy
  let d := d.onHead p fun h => { h with dots := compactDots o.words, subs := o.subs, tLast := some ts, energy := e % 10000000 }
  let d := d.ledAdd (0x40 + 0x40 * p.val + 0x14) 6 1
  if e / 10000000 = 0 then d else d.ledAdd (0x40 + 0x40 * p.val + 0x1C) 4 (e / 10000000)

/-- Period of the line that ends at rest, the last one planned (R344). -/
def Dev.restPeriod (d : Dev) : Nat := (d.axes.a.segs.getLast?.map fun (g : Seg) => g.t / 4).getD d.line.period

/-- A line begins at the tick just raised (R139, R151, R154, R200, R320): the pending results are committed, and the next
period is planned. -/
def Dev.beginLine (d : Dev) (ts : Ts) (pn : PendLine) : Dev :=
  match d.line.band with
  | none => d
  | some b =>
    let planned := pn.planned
    let fromRest := b.pauseOwed || b.next = 0
    let d := fin4.foldl (init := d) fun (d : Dev) (p : Fin 4) => match pn.outs.get p with | some o => d.commitPort ts p o | none => d
    let d := { d with line := { d.line with
      pend := none, period := d.line.nextPeriod
      fire := some { seq := pn.seq, idx := pn.idx, tick := d.clk.tickNo, slots := pn.planes, durs := b.plan.dur.take b.plan.s, vh := pn.vh, trims := pn.trims } } }
    let d := if pn.trimmed then d.onAdm pn.seq fun a => { a with trimmed := true } else d
    -- the band begins: its section is the current one, and its axis block is in use (R139, R333, R334)
    let d := if b.next = 0 then ((d.begin_ pn.seq).makeCurrent b.media).adoptAxes b.mediaCopy else d
    let d := if b.pauseOwed then
        let d := d.postPause b (some ts)
        if b.pauseCause = cDataLate && b.pauseRef = 0 then d
        else d.onAdm pn.seq fun a => a.addLost (since ts b.pauseStart) b.pauseCause b.pauseRef b.waitPeriod
      else d
    let devs := if d.tickSource = 1 && !fromRest then b.devs ++ [signed 48 (ts - planned).toNat] else b.devs
    let b := { b with
      next := b.next + 1, pauseOwed := false, fromRest := false, lastTick := d.clk.tickNo, lastTs := ts
      firstTick := if b.next = 0 then d.clk.tickNo else b.firstTick, firstTs := if b.next = 0 then ts else b.firstTs
      devTick := if devs.length = 1 && b.devs.isEmpty then d.clk.tickNo else b.devTick, devs := devs }
    let d := { d with line.band := some b }
    let d := if devs.length = 6 then d.flushTimes else d
    let d := { d with line.planned := ts + BitVec.ofNat 48 (if d.bandMoves && d.line.nextRest then d.restPeriod else d.line.period) }
    (d.commitLine b.next d.line.period).estimate

/-- The band that a chain decided to follow, as it stands when the band before it has begun its last line (R312, R353). -/
def Dev.chained (d : Dev) (b : BandRt) : Option BandRt :=
  match b.chains with
  | [] => none
  | s :: rest =>
    (d.adm s).map fun a =>
      let n : BandRt := { raw := a.raw, media := a.media, maps := a.maps, dead := a.dead, base := (bFirst a.raw, 0) }
      -- a stop plan whose rest lies behind the band's last line goes on in the one that follows (R312, R313)
      let lead := d.leadLines a.raw
      let on : Option Int := (b.restAfter.map fun (r : Int) => r - ((b.lines + lead : Nat) : Int)).filter fun _ => !b.restsAt b.lines
      { d.copies n with
        restAfter := on, restFrom := b.restFrom, pauseCause := if on.isSome then b.pauseCause else 0
        phase := .firing, chains := rest, endDecided := b.endDecided, pos0 := b.bound b.lines + bLead a.raw
        waitPeriod := pRate (rRate a.raw) }

/-- The chained band takes the place of the one whose last line has been served (R312). -/
def Dev.follow (d : Dev) (n : BandRt) : Dev :=
  let d := { d with line := { d.line with band := some n, following := none }, mot.table := rRamp n.raw }
  let d := { d with mot.ladder := if d.bandMoves then n.ladder else d.mot.ladder }
  let d := d.restartMeans.estimate
  if !d.bandMoves || bLead n.raw = 0 then d else
  -- the first part of its lead_in is planned already
  let d := { d with line.planned := d.line.planned + BitVec.ofNat 48 d.line.nextPeriod }
  if n.pos0 ≤ d.mot.bound then d.pressNext d.line.planned else d

end Sys2Proof.Machine
end

