-- ==== Sys2Proof/Machine/Flash.lean ====
section
/-! DEFINITION. The cellar's cells: sectors, records, vintages, reads and the loading of sections (R469 to R483,
R494 to R498). -/

namespace Sys2Proof.Machine

/-! ## Cells and sectors (R469 to R472) -/

/-- A byte of the cellar; an erased byte reads 0xFF. -/
def Cellar.byte (c : Cellar) (a : Nat) : Byte := ((c.cells.find? fun x => x.1 == a).map (·.2)).getD 0xFF

/-- Program one byte; 0xFF programs nothing. -/
def cellPut (m : List Host.Cell) (a : Nat) (v : Byte) : List Host.Cell :=
  match m with
  | [] => if v = 0xFF then [] else [(a, v)]
  | (b, w) :: rest =>
    if a < b then (if v = 0xFF then (b, w) :: rest else (a, v) :: (b, w) :: rest)
    else if a = b then (if v = 0xFF then rest else (a, v) :: rest)
    else (b, w) :: cellPut rest a v

/-- Program a run of bytes. -/
def cellPutAll (m : List Host.Cell) (a : Nat) : List Byte → List Host.Cell
  | [] => m
  | v :: vs => cellPutAll (cellPut m a v) (a + 1) vs

/-- Program a physical sector. -/
def Cellar.program (c : Cellar) (sector : Nat) (bytes : List Byte) : Cellar :=
  { c with cells := cellPutAll c.cells (sector * 512) (bytes.take 512) }

/-- Erase a physical sector. -/
def Cellar.erase (c : Cellar) (sector : Nat) : Cellar :=
  { c with
    cells := c.cells.filter fun x => x.1 / 512 ≠ sector
    soft := c.soft.filter (· / 128 ≠ sector), bad := c.bad.filter (· / 128 ≠ sector) }

/-- The bad-sector table in use: the verifying copy with the higher table_seq (R471). -/
def Cellar.table (c : Cellar) : Option BadTab :=
  match c.tab0.verifies, c.tab1.verifies with
  | true, true => some (if c.tab0.seq.toNat < c.tab1.seq.toNat then c.tab1 else c.tab0)
  | true, false => some c.tab0
  | false, true => some c.tab1
  | false, false => none

/-- The valid entries in use, as bad sector and spare sector. -/
def Cellar.retired (c : Cellar) : List (Nat × Nat) :=
  match c.table with
  | none => []
  | some t => (t.entries.filter fun e => e.getLsbD 15).map fun e => (bits e.toNat 8 0, 480 + bits e.toNat 13 9)

/-- Physical sector of a logical one: through the table, along a chain of spares (R472). -/
def followSpares (t : List (Nat × Nat)) : Nat → Nat → Nat
  | 0, s => s
  | n + 1, s => match t.find? fun e => e.1 == s with | some e => followSpares t n e.2 | none => s

/-- Physical sector of logical sector n of a bank (true for bank B). -/
def Cellar.sector (c : Cellar) (bankB : Bool) (n : Nat) : Nat := followSpares c.retired 64 ((if bankB then 242 else 4) + n)

/-! ## Records (R476 to R479) -/

/-- First sector within a copy and first byte within the sector of record i. -/
def recPlace (i : Nat) : Nat × Nat :=
  if i < 4 then (1 + 12 * i, 0)
  else if i < 8 then (49 + (i - 4), 0)
  else if i < 16 then (53 + 4 * (i - 8), 0)
  else if i < 24 then (85 + (i - 16) / 2, 256 * (i % 2))
  else if i < 28 then (89 + (i - 24) / 2, 256 * (i % 2))
  else if i < 32 then (91 + (i - 28), 0)
  else if i < 64 then (95 + (i - 32) / 2, 256 * (i % 2))
  else (111, 0)

/-- Address of byte k of record i in a copy. -/
def Cellar.recAddr (c : Cellar) (bankB : Bool) (copy i k : Nat) : Nat :=
  let (s, o) := recPlace i
  c.sector bankB (119 * copy + s + (o + k) / 512) * 512 + (o + k) % 512

/-- The first n bytes of record i of a copy. -/
def Cellar.recBytes (c : Cellar) (bankB : Bool) (copy i n : Nat) : List Byte :=
  (List.range n).map fun k => c.byte (c.recAddr bankB copy i k)

/-- Whether a record's words of a copy are in a list of words. -/
def Cellar.touches (c : Cellar) (l : List Nat) (bankB : Bool) (copy i n : Nat) : Bool :=
  !l.isEmpty && (List.range n).any fun k => l.contains (c.recAddr bankB copy i k / 4)

/-- The 512 bytes of a header copy. -/
def Cellar.header (c : Cellar) (bankB : Bool) (copy : Nat) : List Byte :=
  let a := c.sector bankB (119 * copy) * 512
  (List.range 512).map fun k => c.byte (a + k)

/-- Whether a header copy verifies (R478). -/
def Cellar.headerOk (c : Cellar) (bankB : Bool) (copy : Nat) : Bool :=
  let h := c.header bankB copy
  let w := c.sector bankB (119 * copy) * 128
  !(c.bad.any fun x => w ≤ x && x < w + 128) && le h 0 4 == 0x4B545631 && le h 8 1 == copy && le h 9 1 == b2n bankB &&
    le h 0x1FC 4 == (crc32c (h.take 0x1FC)).toNat

/-- Length and check word of record i in a header (R477). -/
def dirEntry (h : List Byte) (i : Nat) : Nat × W32 := (le h (0x40 + 6 * i) 2, BitVec.ofNat 32 (le h (0x42 + 6 * i) 4))

/-- The header that a bank is read by: copy 0's when it verifies, else copy 1's (R479). -/
def Cellar.head (c : Cellar) (bankB : Bool) : Option (List Byte) :=
  if c.headerOk bankB 0 then some (c.header bankB 0) else if c.headerOk bankB 1 then some (c.header bankB 1) else none

/-- Whether the two header copies both verify and differ in a field other than copy (R479). -/
def Cellar.headsDiffer (c : Cellar) (bankB : Bool) : Bool :=
  let strip (h : List Byte) : List Byte := h.take 8 ++ (h.drop 9).take 0x1F3
  c.headerOk bankB 0 && c.headerOk bankB 1 && strip (c.header bankB 0) != strip (c.header bankB 1)

/-- Whether a copy of record i verifies against a directory entry (R478). -/
def Cellar.recOk (c : Cellar) (bankB : Bool) (copy i : Nat) (e : Nat × W32) : Bool :=
  e.1 == 0 || (!c.touches c.bad bankB copy i e.1 && crc32c (c.recBytes bankB copy i e.1) == e.2)

/-- The first record of a bank that verifies in neither copy. -/
def Cellar.firstBad (c : Cellar) (bankB : Bool) (h : List Byte) : Option Nat :=
  (List.range 65).find? fun i => !(c.recOk bankB 0 i (dirEntry h i) || c.recOk bankB 1 i (dirEntry h i))

/-- State of a bank: none when it holds a valid vintage, else the code of CELLAR_DEFAULTS's detail (R479). -/
def Cellar.bankState (c : Cellar) (bankB : Bool) : Option Nat :=
  match c.head bankB with
  | none => some 0
  | some h => if c.headsDiffer bankB then some 3 else if (c.firstBad bankB h).isSome then some 1 else none

/-- Vintage number of a bank's verifying header, 0 for none. -/
def Cellar.number (c : Cellar) (bankB : Bool) : Nat := match c.head bankB with | some h => le h 4 4 | none => 0

/-- The bank of the newest valid vintage (R480). -/
def Cellar.newest (c : Cellar) : Option Bool :=
  match (c.bankState false).isNone, (c.bankState true).isNone with
  | true, true => some (decide (c.number false < c.number true))
  | true, false => some false
  | false, true => some true
  | false, false => none

/-! ## Reads (R494 to R498) -/

/-- What a read of a record answers. -/
inductive Served where
  | content (bytes : List Byte) (corrected : Bool)
  | empty
  | wait
  | fail
deriving DecidableEq, Repr

/-- Body of the factory media profile of a media section (R210, R370, R401). -/
def factoryMedia : List Byte :=
  let axis0 : List Byte := [4, 128, 0, 1] ++ leBytes 4 0x00100000 ++ leBytes 2 1000 ++ [0, 0]
  let cutter : List Byte := [0xFF, 192] ++ leBytes 2 1000 ++ [0, 0, 0, 0] ++ zeros 4 ++ leBytes 2 600 ++ leBytes 2 50 ++ zeros 4
  let tone : List Byte := ((List.range 16).map fun l => leBytes 2 (24 * l)).flatten
  [0xFF, 2, 4, 0] ++ zeros 4 ++ leBytes 2 520 ++ zeros 4 ++ leBytes 2 64 ++ leBytes 2 6400 ++ zeros 14 ++ tone ++ tone ++ zeros 64 ++
    axis0 ++ zeros 36 ++ cutter ++ zeros 28

/-- Header and body of a section image from +0x01: type, index, release_request, length, reserved, revision, check
word, body. -/
def imageOf (ty idx rev : Nat) (body : List Byte) : List Byte :=
  let head : List Byte := leBytes 2 body.length ++ [0, 0] ++ leBytes 4 rev
  [BitVec.ofNat 8 ty, BitVec.ofNat 8 idx, 0] ++ head ++ leBytes 4 (crc32c (head ++ body)).toNat ++ body

/-- A media section's body as a slot stores it: origin holds the slot, the reserved bytes are zero (R476). -/
def slotBody (slot : Nat) (body : List Byte) : List Byte := BitVec.ofNat 8 slot :: (body.take 228).drop 1 ++ zeros 28

/-- The image that media slot n of the factory defaults holds: slot 0 alone has content. -/
def factorySlot : List Byte := (imageOf 3 0 0 (slotBody 0 factoryMedia)).take 243

/-- The logical sector of the bank that a store programs, by step and count, with the header copy it holds: the records of
copy 0, then of copy 1, then the header of copy 1, then of copy 0. -/
def Store.target (st : Store) : Nat × Option Nat :=
  if st.step = 2 then (if st.sector < 118 then (1 + st.sector, none) else (120 + (st.sector - 118), none))
  else if st.sector = 0 then (119, some 1) else (0, some 0)

/-- Whether a record of a copy lies in the sector that a store erases or programs: its words read as flagged (R496). -/
def Cellar.underStore (c : Cellar) (bankB : Bool) (copy i n : Nat) : Bool :=
  match c.store with
  | none => false
  | some st =>
    let busy := c.sector st.bankB (if st.step = 1 then st.sector else st.target.1)
    st.step ≤ 3 && (List.range n).any fun k => c.recAddr bankB copy i k / 512 == busy

/-- Whether a copy of a record in the bank that is not in use can be served (R495, R496). -/
def Cellar.otherOk (c : Cellar) (copy i : Nat) (e : Nat × W32) : Bool :=
  c.recOk (!c.bankB) copy i e && !c.underStore (!c.bankB) copy i e.1

/-- The read of a record (R494 to R498): while a store is in progress, one that no copy serves waits for its end. -/
def Dev.readRecord (d : Dev) (i : Nat) : Served :=
  let c := d.cel
  if !c.inUse then (if i = 32 then .content factorySlot false else .empty) else
  match c.head c.bankB with
  | none => if c.store.isSome then .wait else .fail
  | some h =>
    let e := dirEntry h i
    if e.1 = 0 then .empty
    else if c.recOk c.bankB 0 i e then .content (c.recBytes c.bankB 0 i e.1) (c.touches c.soft c.bankB 0 i e.1)
    else if c.recOk c.bankB 1 i e then .content (c.recBytes c.bankB 1 i e.1) (c.touches c.soft c.bankB 1 i e.1)
    else if c.otherOk 0 i e then .content (c.recBytes (!c.bankB) 0 i e.1) (c.touches c.soft (!c.bankB) 0 i e.1)
    else if c.otherOk 1 i e then .content (c.recBytes (!c.bankB) 1 i e.1) (c.touches c.soft (!c.bankB) 1 i e.1)
    else if c.store.isSome then .wait
    else .fail

/-- Whether the cellar holds content for a record, without reading it (R498). -/
def Dev.hasContent (d : Dev) (i : Nat) : Bool := d.readRecord i != .empty

/-- Detail of cellar records. -/
def cellarDetail (vint other bank rec_ sector spare stp : Nat) (value : Nat) : List Byte :=
  leBytes 4 vint ++ leBytes 4 other ++ [BitVec.ofNat 8 bank, BitVec.ofNat 8 rec_] ++ leBytes 2 sector ++ leBytes 2 spare ++
    [BitVec.ofNat 8 stp, 0] ++ leBytes 4 value

/-- The newest vintage's number, 0 with the factory defaults. -/
def Dev.vintageNow (d : Dev) : Nat := if d.cel.inUse then d.cel.number d.cel.bankB else 0

/-- CELLAR_CORRECTED, once per record and reset (R494). -/
def Dev.corrected (d : Dev) (i : Nat) : Dev :=
  if d.cel.corrected.contains i then d else
  { d with cel.corrected := i :: d.cel.corrected }.raise
    { code := cCellarCorrected, sev := some .note, detail := cellarDetail d.vintageNow 0 (b2n d.cel.bankB) i 0xFFFF 0 0 0 }

/-! ## Filling sections (R111, R371, R476) -/

/-- The vintage record of a section: its own, or the slot for a media section. -/
def recOf (ty idx slot : Nat) : Nat :=
  match ty with | 1 => 8 + idx | 2 => 16 + idx | 3 => 32 + slot | 4 => 24 + idx | _ => 28 + idx

/-- Fill section n from an image; a media section holds the slot from then on. -/
def Dev.fillFrom (d : Dev) (n slot : Nat) (image : List Byte) : Dev :=
  let rev := le image 7 4
  let body := image.drop 15
  if secType n = 3 then
    let d := d.fillSec n (slotBody slot (body ++ zeros (228 - body.length))) rev
    let held : Quad (Option Nat) := d.win.loaded.set (fin4Of (secIndex n)) (some slot)
    { d with win := { d.win with loaded := held } }.syncChannels
  else d.fillSec n body rev

/-- The content of a section as a store would hold it (R476): for a media section, the slot's form. -/
def Dev.imageOfSec (d : Dev) (n slot : Nat) : List Byte :=
  if secType n = 3 then (imageOf 3 (secIndex n) (d.secRev n) (slotBody slot (d.secFull n))).take 243
  else [d.ram (secAddr n + 1), d.ram (secAddr n + 2), 0] ++ d.rams (secAddr n + 4) 12 ++ d.secBody n

/-- An adoption or a learning joins the pending store set (R397, R485). -/
def Dev.joinSet (d : Dev) (i : Nat) (image : List Byte) : Dev :=
  { d with cel.pendingSet := (d.cel.pendingSet.filter fun x => x.1 ≠ i) ++ [(i, image)] }

/-! ## Uses of media sections (R132) -/

/-- A media section has been used last. What counts as a use the spec does not say: the admission of a BAND that names the
section or is given it, and the begin of a LEARN_MEDIA; a section never used counts as oldest, and of equals the lowest index
is taken (DESIGN CHOICE, log entry 129). -/
def Dev.useMedia (d : Dev) (n : Nat) : Dev :=
  { d with win := { d.win with mediaUse := n :: d.win.mediaUse.filter (· ≠ n) } }

/-- The section that already holds a cellar profile. -/
def Dev.holderOf (d : Dev) (slot : Nat) : Option Nat :=
  (List.range 4).find? fun n => d.secOn (16 + n) && d.win.loaded.get (fin4Of n) == some slot

/-- The device-owned media section that no admitted and uncompleted record but this one names and that was used least
recently. -/
def Dev.victim (d : Dev) (seq : W32) : Option Nat :=
  let free := (List.range 4).filter fun n => d.secOn (16 + n) &&
    !(d.rings.admitted.any fun a => rSeq a.raw ≠ seq && (d.namesSecs a).contains (16 + n))
  let age (n : Nat) : Nat := (d.win.mediaUse.findIdx? (· == n)).getD 4
  match free with
  | [] => none
  | n :: rest => some (rest.foldl (fun m x => if age m < age x then x else m) n)

end Sys2Proof.Machine
end

