-- ==== Sys2Proof/Machine/Checks.lean ====
section
/-! DEFINITION. The checks of a job record at admission: its own fields, the fields of the sections it names, the
ports, sections, axes and channels it needs, and its trims (R128, R129, R628 and the rules they gather). -/

namespace Sys2Proof.Machine

/-- What admission finds: a refusal with its code and detail, or a record to be done, trimmed or not. -/
inductive Verdict where
  | go (trimmed : Bool)
  | no (code : W16) (detail : Nat)
deriving DecidableEq, Repr

/-- Detail of a bad field in section n (R178). -/
def secDetail (n off : Nat) : Nat := 0x8000 + (secAddr n + off - 0x1000)

/-- Whether a line rate is outside 1 to 20,000. -/
def rateBad (r : List Byte) : Bool := rRate r == 0 || 20000 < rRate r

/-! ## The record's own fields -/

/-- Step 2 for the record's own fields (R131, R128): first the fields alone in ascending offset, then those that
join. -/
def Dev.ownBad (d : Dev) (r : List Byte) : Option Nat :=
  let ramp : Bool × Nat := (7 < rRamp r, rampOff (rType r))
  let rate : Bool × Nat := (rateBad r, rateOff (rType r))
  match rType r with
  | 0x10 =>
    let consumed := match d.win.lastBandBlock with | some q => !laterSeq (bFirst r) q | none => false
    let faces := (portsOf (rMask r)).map fun p => (d.mapFor p).back
    firstBad [(rMask r = 0, 3), (consumed, 0x0C), (!([1, 2, 4].contains (bBits r)), 0x14), (2 < bPlane r, 0x15),
      (3 < bMedia r && (bMedia r < 0x20 || 0x3F < bMedia r), 0x16), (7 < bSlot r, 0x17), ramp, rate,
      (bPlane r = 2 && !(faces.contains true && faces.contains false), 0x15)]
  | 0x20 | 0x21 => firstBad [ramp, rate]
  | 0x22 => firstBad [(7 < kSensor r, 0x10), (4 < kEdge r, 0x11), ramp, rate]
  | 0x30 => firstBad [(1 < cCutter r, 0x0C), (cCutter r = 1 && 7 < cChannel r, 0x0D), (1 < cKind r, 0x0E), ramp, rate]
  | 0x40 => firstBad [(7 < sChannel r, 0x0C), (1 < sPairing r, 0x0D), (sPeak r = 0, 0x10), (sPeakMax r = 0, 0x12),
      (sPairing r = 1 && sChannel r % 2 = 1, 0x0D), (sHold r ≠ 0 && sHoldTime r = 0, 0x16), (1 < sCount r && sPeriod r = 0, 0x18)]
  | 0x50 => firstBad [(aType r = 0 || 5 < aType r, 0x0C),
      ((if aType r = 1 || aType r = 2 then 7 else 3) < aIndex r, 0x0D), (1 < aDir r, 0x0E), (aType r = 3 && 31 < aSlot r, 0x0F)]
  | 0x60 => firstBad [(lMask r = 0, 0x0C), (3 < lSec r, 0x0D), ramp, (0 < rDist r && rDist r < 256, 0x10), rate]
  | 0x61 => firstBad [(rMask r = 0, 3),
      ((portsOf (rMask r)).any (fun p => d.portOn p && (d.pers.ports.get p).dots < tFirst r + tCount r), 0x0C)]
  | _ => none

/-! ## Media sections -/

/-- Whether an axis is off (R330). -/
def Dev.axisOff (d : Dev) (x : Fin 4) : Bool := !([1, 2].contains (d.pers.axisCfg.get x))

/-- Whether a record moves the media by AX0 (R330, R576). -/
def Dev.needsAx0 (d : Dev) (r : List Byte) : Bool :=
  match rType r with
  | 0x10 => d.bandMoves
  | 0x20 | 0x21 | 0x22 | 0x60 => true
  | 0x30 => cAdvance r ≠ 0 || cBack r ≠ 0
  | _ => false

/-- The axes a record needs under a media section (R330, R332). -/
def Dev.axesFor (d : Dev) (r m : List Byte) : List (Fin 4) :=
  (if d.needsAx0 r then 0 :: (if engaged (mAxis m 1) then [1] else []) ++ (if engaged (mAxis m 2) then [2] else []) else []) ++
    (if rType r = 0x30 && cCutter r = 0 then [3] else [])

/-- Fields alone of the entry of axis x (R331), by offset in the section. -/
def entryAlone (m : List Byte) (x : Fin 4) : List (Bool × Nat) :=
  let e := mAxis m x.val
  let o := 0xB0 + 12 * x.val
  [(6 < eUstep e, o), (eRun e = 0, o + 1),
   (if x = 0 then eRatio e < 0x10000 || 0x10000000 < eRatio e else if x = 3 then false else 0x100000 < (eRatioS e).natAbs, o + 4),
   (eRelease e = 0, o + 8)]

/-- Joined checks of the entry of axis x (R331, R332). -/
def Dev.entryJoins (d : Dev) (m : List Byte) (x : Fin 4) : List (Bool × Nat) :=
  let e := mAxis m x.val
  let o := 0xB0 + 12 * x.val
  let dc := d.pers.axisCfg.get x == 2
  [(eStallOn e && !dc && (eStall e = 0 || 127 < eStall e), o + 10),
   (eJamOn e && (if x = 0 then mCpl m ≠ 0 else x == 3 && dc) && eJam e = 0, o + 11)]

/-- Levels and times of a cutter block's pulse or of a SOLENOID record: peak_level, peak_time_max, hold_level,
hold_time. -/
structure PulseSpec where
  peak : Nat
  peakMax : Nat
  hold : Nat
  holdTime : Nat
deriving DecidableEq, Repr

/-- Field of the cutter block at an offset of the block (R401). -/
def cutField (m : List Byte) (off n : Nat) : Nat := le m (0xE0 + off) n

/-- The pulse of a cutter block. -/
def cutPulse (m : List Byte) : PulseSpec := ⟨cutField m 0x0C 2, cutField m 0x0E 2, cutField m 0x10 2, cutField m 0x12 2⟩

/-- The trim of R419; none while SET9 is SHORT. -/
def Dev.trimPulse (d : Dev) (p : PulseSpec) : PulseSpec :=
  if d.noSolenoids then p else
  { p with peak := min p.peak (10 * d.solCap), peakMax := min p.peakMax d.solMax, hold := min p.hold (10 * d.solCap) }

/-- Fields alone of the section's cutter block for a CUT (R401). -/
def cutterAlone (r m : List Byte) : List (Bool × Nat) :=
  let h := cutField m 0 1
  let sol := cCutter r = 1
  [(7 < h && h ≠ 0xFF, 0xE0), (cutField m 2 2 = 0, 0xE2), (8 < cutField m 4 1, 0xE4), (1 < cutField m 5 1, 0xE5),
   (sol && (cutPulse m).peak = 0, 0xEC), (sol && (cutPulse m).peakMax = 0, 0xEE)]

/-- Joined checks of the section's cutter block for a CUT (R401, R402). -/
def Dev.cutterJoins (d : Dev) (r m : List Byte) : List (Bool × Nat) :=
  let h := cutField m 0 1
  let a := cutField m 4 1
  let p := d.trimPulse (cutPulse m)
  let sol := cCutter r = 1
  [(h ≠ 0xFF && mRole m h ≠ 6, 0xE0), (cCutter r = 0 && cKind r = 1 && cutField m 1 1 = 0, 0xE1),
   (a ≠ 0 && !([1, 2, 3].contains (mRole m (a - 1))), 0xE4), (sol && p.hold ≠ 0 && p.holdTime = 0, 0xF2), (sol && p.peak < p.hold, 0xF0)]

/-- Tone curves in use for a BAND (R212). -/
def curvesFor (r : List Byte) : List Nat := if rType r = 0x10 then (if bPlane r = 0 then [0] else [0, 1]) else []

/-- Channels whose levels a record makes the device check (R373): all of them for a record whose section becomes
current, else those it names. -/
def chansFor (r m : List Byte) : List Nat :=
  match rType r with
  | 0x10 | 0x60 => List.range 8
  | 0x22 => [kSensor r]
  | 0x30 => (if cutField m 0 1 < 8 then [cutField m 0 1] else []) ++ (if cutField m 4 1 ≠ 0 && cutField m 4 1 ≤ 8 then [cutField m 4 1 - 1] else [])
  | _ => []

/-- The channel of a media section whose levels lie too close, by the offset of level_media: what the device checks when the
section becomes current (R373). -/
def spanBad (m : List Byte) : Option Nat :=
  ((List.range 8).find? fun c => mRole m c ≠ 0 && ((mLevM m c : Int) - mLevS m c).natAbs < 64).map fun c => chOff c + 2

/-- The first bad field of a media section for a record (R370 to R373, R331, R401 in the order of R628). -/
def Dev.mediaBad (d : Dev) (r m : List Byte) : Option Nat :=
  let ax := d.axesFor r m
  let t := le m 0x18 2
  let tone : List (Bool × Nat) := ((curvesFor r).map fun c => (List.range 16).map fun i => (decide (4095 < mTone m c i), 0x30 + 0x20 * c + 2 * i)).flatten
  let chan : List (Bool × Nat) := ((List.range 8).map fun c =>
    [(decide (6 < mRole m c), chOff c), (decide (160 < mEmit m c), chOff c + 1), (decide (64 < mHyst m c), chOff c + 6)]).flatten
  let levels : List (Bool × Nat) := ((chansFor r m).map fun c =>
    [(mRole m c ≠ 0 && mHyst m c = 0, chOff c + 6), (mRole m c ≠ 0 && ((mLevM m c : Int) - mLevS m c).natAbs < 64, chOff c + 2)]).flatten
  let plain : List (Bool × Nat) :=
    [(le m 4 2 ≠ 256, 4), (0x20 ≤ le m 0x10 1 && le m 0x10 1 ≠ 0xFF, 0x10), (7 < mTol m, 0x11), (mCover m / 2 % 4 = 3, 0x12),
     (mCpl m ≠ 0 && (mCpl m < 0x4000 || 0x1000000 < mCpl m), 0x14), (unsigned 16 (signed 12 t) ≠ t, 0x18), (mGapMin m = 0, 0x1E)]
  let cut := rType r = 0x30
  firstBad (plain ++ tone ++ chan ++ (ax.map (entryAlone m)).flatten ++ (if cut then cutterAlone r m else []) ++
    ((decide (mGapMax m < mGapMin m), 0x20) :: levels) ++ (ax.map (d.entryJoins m)).flatten ++ (if cut then d.cutterJoins r m else []))

/-! ## The other sections -/

/-- The slot plan of a BAND: R208, and R259 for each port that it feeds. -/
def Dev.slotBad (d : Dev) (r m : List Byte) : Option Nat :=
  match planBad m (bPlane r ≠ 0) with
  | some o => some o
  | none =>
    let p := planOf m
    let shift := ((portsOf (rMask r)).filter d.portOn).foldl (fun x q => max x (d.tShift q)) 0
    let short : List (Bool × Nat) := (List.range (p.s - 1)).map fun s => (decide (p.dur.getD s 0 < shift + 4), 0x20 + 2 * s)
    let long : List (Bool × Nat) := (List.range p.s).map fun s => (decide (4600 < (p.dur.take (s + 1)).foldl (· + ·) 0), 0x20 + 2 * s)
    firstBad (short ++ long)

/-- A port's segment map (R175, R177): none when it is good. -/
def Dev.mapBad (d : Dev) (p : Fin 4) : Option Verdict :=
  let n := 24 + p.val
  let m := d.secRaw n
  let b := d.pers.ports.get p
  let k := le m 0x10 1
  let ws := words m 0x20 (min k 32)
  let alone : List (Bool × Nat) := ws.zipIdx.map fun (w, i) => (wCount w == 0 || decide (4096 < wCount w), 0x20 + 4 * i)
  let joined : List (Bool × Nat) := ws.zipIdx.map fun (w, i) => (segBad b.dots b.lanes w, 0x20 + 4 * i)
  let plain : List (Bool × Nat) := [(k = 0 || 32 < k, 0x10), (1 < le m 0x11 1, 0x11), (1 < le m 0x12 1, 0x12)]
  match firstBad (plain ++ alone ++ ((decide (le m 4 2 ≠ 16 + 4 * k), 4) :: joined)) with
  | some o => some (.no cBadField (secDetail n o))
  | none => if covers b.dots b.lanes ws then none else some (.no cMapCoverage 0)

/-- A port's dead-dot additions (R185). -/
def Dev.addsBad (d : Dev) (p : Fin 4) : Option Nat :=
  let m := d.secBody (20 + p.val)
  let ws := words m 0 (m.length / 4)
  let one : List (Bool × Nat) := ws.zipIdx.map fun (w, i) => (decide ((d.pers.ports.get p).dots ≤ eDot w), 0x10 + 4 * i)
  let gain : List (Bool × Nat) := ws.zipIdx.map fun (w, i) => (eGain w == 0 && eMode w ≠ 3, 0x10 + 4 * i)
  -- of two entries that name one dot the lower offset is named (R628)
  let twice : List (Bool × Nat) := ws.zipIdx.map fun (w, i) => ((ws.drop (i + 1)).any (fun x => eDot x == eDot w), 0x10 + 4 * i)
  firstBad ((decide (m.length % 4 ≠ 0), 4) :: (one ++ gain ++ twice))

/-- The ladder of a record's ramp table and media section, once each is good by itself (R345, R346). -/
def Dev.rungsBad (d : Dev) (n : Nat) (m : List Byte) : Option Nat :=
  let body := d.secBody n
  if ladderBad body (mkLadder body (leadOf m)) then some 0x10 else none

/-- Media section by number for a record at admission: a BAND's and a LEARN_MEDIA's own, else the current one (R333);
none for a BAND whose profile must be loaded first. -/
def Dev.mediaOf (d : Dev) (r : List Byte) : Option Nat :=
  match rType r with
  | 0x10 => if bMedia r < 4 then some (bMedia r) else d.holderOf (bMedia r - 0x20)
  | 0x60 => some (lSec r)
  | 0x20 | 0x21 | 0x22 | 0x30 => some d.mot.curMedia
  | _ => none

/-- Whether the sensors a record names fit it (R381, R391), when its media section is in force. -/
def roleBad (r m : List Byte) : Option Nat :=
  match rType r with
  | 0x22 => if mRole m (kSensor r) = [1, 1, 2, 2, 3].getD (kEdge r) 0 then none else some 0x11
  | 0x60 => if (List.range 8).any fun c => (lMask r).testBit c && [0, 6].contains (mRole m c) then some 0x0C else none
  | _ => none

/-- Step 2 for the sections in force, in ascending window offset: ramp table, slot plan, media section, additions,
maps; last the ladder, which joins table and media section (log entry 18). -/
def Dev.sectionsBad (d : Dev) (r : List Byte) : Option Verdict :=
  let bad (n : Nat) (o : Option Nat) : Option Verdict := o.map fun o => .no cBadField (secDetail n o)
  let media := match d.mediaOf r with | some n => if d.secOn (16 + n) then some n else none | none => none
  let m := match media with | some n => d.mediaSec n | none => []
  let ramped := movesMedia (rType r) && !(rType r == 0x10 && d.tickSource = 2) && d.secOn (rRamp r)
  let ramp := if ramped then bad (rRamp r) (rampBad (d.secBody (rRamp r))) else none
  let rungs := if ramped && media.isSome then bad (rRamp r) (d.rungsBad (rRamp r) m) else none
  let slot := if rType r = 0x10 && d.secOn (8 + bSlot r) then bad (8 + bSlot r) (d.slotBad r (d.secRaw (8 + bSlot r))) else none
  let med := match media with | some n => bad (16 + n) (d.mediaBad r m) | none => none
  -- of every port of the mask, a port that is off included: step 3 comes after this one (R177)
  let ps := if rType r = 0x10 then portsOf (rMask r) else []
  let adds := ps.findSome? fun p => if d.secOn (20 + p.val) then bad (20 + p.val) (d.addsBad p) else none
  let maps := ps.findSome? fun p => if d.secOn (24 + p.val) then d.mapBad p else none
  match (if media.isSome then roleBad r m else none) with
  | some o => some (.no cBadField o)
  | none => [ramp, slot, med, adds, maps, rungs].findSome? id

/-! ## Steps 3 to 7 -/

/-- The sections that a record names in the sense of R109, and the cellar content that it needs (R134, R498). -/
def Dev.forceBad (d : Dev) (r : List Byte) : Option Verdict :=
  let off (n : Nat) : Option Verdict := if d.secOn n then none else some (.no cSectionNotInForce 0)
  let media := match d.mediaOf r with | some n => off (16 + n) | none => none
  match rType r with
  | 0x10 =>
    let ramp := if d.tickSource = 2 then none else off (rRamp r)
    let cellar := if (d.mediaOf r).isNone && !d.hasContent (32 + (bMedia r - 0x20)) then some (Verdict.no cCellarEmpty 0) else none
    [ramp, off (8 + bSlot r), media, cellar].findSome? id
  | 0x20 | 0x21 | 0x22 | 0x30 | 0x60 => [off (rRamp r), media].findSome? id
  | 0x50 =>
    let n := secNo (aType r) (aIndex r)
    let busy := aDir r = 1 && d.rings.admitted.any fun a => rSeq a.raw ≠ rSeq r && (d.namesSecs a).contains n
    let empty := aDir r = 1 && !d.hasContent (recOf (aType r) (aIndex r) (aSlot r))
    [off n, if busy then some (Verdict.no cSectionBusy 0) else none, if empty then some (Verdict.no cCellarEmpty 0) else none].findSome? id
  | _ => none

/-- Channels of the coils that a record names. -/
def coilsOf (r : List Byte) : List (Fin 8) :=
  match rType r with
  | 0x30 => if cCutter r = 1 then [fin8Of (cChannel r)] else []
  | 0x40 => if sPairing r = 1 then [fin8Of (sChannel r), mateOf (fin8Of (sChannel r))] else [fin8Of (sChannel r)]
  | _ => []

/-- Whether a sensor channel of a media section is blind (R400). -/
def mBlind (m : List Byte) (c : Nat) : Bool := bit (le m 0x2C 4) (8 + c)

/-- Step 5: axes, solenoid channels, sensors and the stack (R330, R400, R420, R438, R576, R582). -/
def Dev.unitBad (d : Dev) (r : List Byte) : Option Verdict :=
  -- of a BAND whose profile is still to be loaded the axes that the section engages are not known yet (R330, R345)
  let m := match d.mediaOf r with | some n => d.mediaSec n | none => if rType r = 0x10 then [] else d.curMedia
  let fires := movesMedia (rType r) || rType r = 0x61
  let member := d.isMember && rType r ≠ 0x10 && d.needsAx0 r
  if fires && !d.link.joined then some (.no cLinkDown 0)
  else if member || (d.axesFor r m).any d.axisOff then some (.no cAxisOff 0)
  else if !(coilsOf r).isEmpty && d.noSolenoids then some (.no cSolenoidsOff 0)
  else if (coilsOf r).any fun c => d.solx.fenced.get (pairOf c) then some (.no cChannelFenced 0)
  else if (rType r = 0x22 && mBlind m (kSensor r)) || (rType r = 0x30 && cutField m 4 1 ≠ 0 && mBlind m (cutField m 4 1 - 1)) then
    some (.no cSensorBlind 0)
  else none

/-- Whether a band's tone curves exceed a ceiling (R235). -/
def Dev.curveTrim (d : Dev) (maps : Quad SegMap) (r m : List Byte) : Bool :=
  (portsOf (rMask r)).any fun p =>
    let curves := if bPlane r = 0 then [0] else if bPlane r = 1 then [0, 1] else [if (maps.get p).back then 1 else 0]
    curves.any fun c => (List.range 15).any fun i => (d.pers.ports.get p).ceiling < mTone m c (i + 1)

/-- Levels and times of a SOLENOID record. -/
def recPulse (r : List Byte) : PulseSpec := ⟨sPeak r, sPeakMax r, sHold r, sHoldTime r⟩

/-- Step 7: the code of the limit that a record exceeds (R235, R403, R419). -/
def Dev.trims (d : Dev) (r : List Byte) : Option W16 :=
  match rType r with
  | 0x10 => match d.mediaOf r with | some n => if d.curveTrim d.mapsFor r (d.mediaSec n) then some cCeilingTrim else none | none => none
  | 0x40 => if d.trimPulse (recPulse r) = recPulse r then none else some cSolenoidTrim
  | 0x30 =>
    let p := cutPulse d.curMedia
    if cCutter r = 1 && d.trimPulse p ≠ p then some cSolenoidTrim else none
  | _ => none

/-- The joined checks of a SOLENOID with the values it has after the trim (R418). -/
def Dev.pulseBad (d : Dev) (r : List Byte) : Option Nat :=
  let p := d.trimPulse (recPulse r)
  if rType r ≠ 0x40 then none
  else firstBad [(p.peak < p.hold, 0x14), (1 < sCount r && sPeriod r < p.peakMax + p.holdTime + 10, 0x18)]

/-- The checks of R128 for a record of a known type other than NOTE and BARRIER. Step 7 follows step 6, so a ZERO record that
exceeds a limit is marked TRIMMED as well, or refused under NO_TRIM. -/
def Dev.check (d : Dev) (r : List Byte) : Verdict :=
  match d.ownBad r with
  | some o => .no cBadField o
  | none =>
    match d.pulseBad r with
    | some o => .no cBadField o
    | none =>
      match d.sectionsBad r with
      | some v => v
      | none =>
        let off := (portsOf (rMask r)).filter fun p => !d.portOn p
        if !off.isEmpty then .no cPortOff (maskOf off) else
        match d.forceBad r with
        | some v => v
        | none =>
          match d.unitBad r with
          | some v => v
          | none =>
            match d.trims r with
            | some c => if rNoTrim r then .no c 0 else .go true
            | none => .go false

/-- The checks of a BAND whose media profile has been loaded (R235, R345, R346, R370 to R373); n is the section, maps are those
of its admission. -/
def Dev.checkLoaded (d : Dev) (maps : Quad SegMap) (r : List Byte) (n : Nat) : Verdict :=
  let m := d.mediaSec n
  let rungs := if d.tickSource = 2 then none else d.rungsBad (rRamp r) m
  match d.mediaBad r m, rungs with
  | some o, _ => .no cBadField (secDetail (16 + n) o)
  | none, some o => .no cBadField (secDetail (rRamp r) o)
  | none, none =>
    if (d.axesFor r m).any d.axisOff then .no cAxisOff 0
    else if d.curveTrim maps r m then (if rNoTrim r then .no cCeilingTrim 0 else .go true) else .go false

end Sys2Proof.Machine
end

