-- ==== Sys2Proof/Machine/Pins.lean ====
section
/-! DEFINITION. What stands on the output balls: head ports, half-bridges, solenoid gates, emitters and the device's own pins, as
the state gives them (R249, R250, R323 to R326, R358, R359, R374, R407, R408, R516, R594, R596, R598, R605). -/

namespace Sys2Proof.Machine

/-! ## Who drives (R250, R326, R408, R594, R596) -/

/-- The chip drives its outputs. Until the straps are decided every output has its reset level (R516). -/
def Dev.drives (d : Dev) : Bool := !d.pers.strapsDone || d.link.driving

/-- It drives the AXn, SCn_G, HSk_G, BST_G and BST_DUMP_G outputs: in a half that takes over from 1.0 µs after the conditions of
R595 held (R596). -/
def Dev.drivesPower (d : Dev) : Bool := d.drives || (d.link.takeover.isSome && d.past d.link.takeTs 25)

/-- It drives the head outputs: in a half that takes over from the first shift of the takeover line (R596). -/
def Dev.drivesHeads (d : Dev) : Bool := d.drives || d.link.takeHeads

/-- A level where it is driven, none for high impedance. -/
def levelIf {α : Type} (driven : Bool) (x : α) : Option α := if driven then some x else none

/-! ## Half-bridges (R323 to R325, R356 to R361) -/

/-- The four gates of a winding's half-bridges: high side and low side of the first, of the second. -/
structure Gates where
  h1 : Bool := false
  l1 : Bool := false
  h2 : Bool := false
  l2 : Bool := false
deriving DecidableEq, Repr

/-- The gates of a driven winding: from the first half-bridge to the second, or back. -/
def driveGates (fwd : Bool) : Gates := ⟨fwd, !fwd, !fwd, fwd⟩

/-- The gates that a bridge's work asks for e after it began, in 10 ns. -/
def Bridge.gates (b : Bridge) (e : Nat) : Gates :=
  match b with
  | .off => {}
  | .slow => ⟨false, true, false, true⟩
  | .drive f => driveGates f
  | .decay f t => if e < t then driveGates (!f) else ⟨false, true, false, true⟩

/-- The gates before the latest change, and the time since that change. -/
def Winding.before (w : Winding) (e : Nat) : Gates × Nat :=
  match w.bridge with
  | .decay f t => if 0 < t ∧ t ≤ e then (driveGates (!f), e - t) else (w.was.gates (2 ^ 48), e)
  | _ => (w.was.gates (2 ^ 48), e)

/-- A gate goes low at once; it goes high only after the dead time (R325). -/
def gateLevel (now before late : Bool) : Bool := now && (before || late)

/-- The gates of a winding e after its bridge last changed, under a dead time in 10 ns. -/
def Winding.levels (w : Winding) (dead e : Nat) : Gates :=
  let g := w.bridge.gates e
  let (b, s) := w.before e
  let late := decide (dead ≤ s)
  ⟨gateLevel g.h1 b.h1 late, gateLevel g.l1 b.l1 late, gateLevel g.h2 b.h2 late, gateLevel g.l2 b.l2 late⟩

/-- Dead time of a half-bridge in 10 ns (R325). -/
def Dev.deadTime (d : Dev) : Nat := if d.slow then 50 else 25

/-- A gate of a winding turned on less than 200 ns ago: its comparator is ignored (R364). -/
def Dev.justOn (d : Dev) (x : Fin 4) (b : Bool) : Bool :=
  let w := (d.axes.get x).wind b
  let s := (w.before (4 * since d.clk.now w.turnTs)).2
  w.bridge != .off && decide (d.deadTime ≤ s && s < d.deadTime + 20)

/-- What a winding's half-bridges are to do (R324, R356, R359, R361, R364, R526): every gate off while the axis is off, in
personality error, in Doze and Dormant, before the first energising, after a release and while the axis is held; both low sides on for the brake, for a release
with BRAKE, and for a target of 0. -/
def Dev.wantBridge (d : Dev) (x : Fin 4) (b : Bool) : Bridge :=
  let a := d.axes.get x
  let dc := d.dcAxis x
  let w := a.wind b
  if d.axisOff x || d.persError || d.sys.sleep != .awake || a.held || (b && dc) then .off
  else if !a.energised then (if a.released && eBrake a.entry then .slow else .off)
  else if x == 3 && d.mot.auxBrake then .slow
  else if w.on then (if a.target dc b = 0 then .slow else .drive (decide (0 < a.target dc b)))
  else if w.off = 0 then .slow
  else .decay w.dir w.fast

/-- A winding's half-bridges go over to what they are to do. -/
def Dev.settleBridge (d : Dev) (x : Fin 4) (b : Bool) : Dev :=
  let want := d.wantBridge x b
  if ((d.axes.get x).wind b).bridge = want then d else
  d.onAxis x fun a => a.setWind b { a.wind b with bridge := want, was := (a.wind b).bridge, turnTs := d.clk.now }

/-- All half-bridges follow what a command has changed. -/
def Dev.settleBridges (d : Dev) : Dev := d.each4 fin4 fun x d => (d.settleBridge x false).settleBridge x true

/-- The gate outputs of a winding: AXn_A1H, A1L, A2H, A2L, or those of B (R323 to R326). -/
def Dev.axisPins (d : Dev) (x : Fin 4) (b : Bool) : Option Gates :=
  let w := (d.axes.get x).wind b
  levelIf d.drivesPower
    (if d.wantBridge x b = .off then {} else w.levels d.deadTime (4 * since d.clk.now w.turnTs))

/-! ## Head ports (R249, R250) -/

/-- The outputs of a head port between the edges of a command: lane data, HPn_CLK, HPn_LAT and HPn_STB0 to HPn_STB7, the last two
active low. -/
structure HeadPins where
  data : BitVec 16
  clk : Bool
  lat : Bool
  stb : BitVec 8
deriving DecidableEq, Repr

/-- The levels of a head port's outputs. Lanes from its lane count on and strobes from its strobe count on keep their reset
level. -/
def Dev.headPins (d : Dev) (p : Fin 4) : Option HeadPins :=
  let h := d.heads.get p
  let b := d.pers.ports.get p
  levelIf (d.sys.vhioOk && d.drivesHeads)
    (if !d.portOn p || d.persError then ⟨0, false, true, 0xFF⟩
     else ⟨h.lanes &&& BitVec.ofNat 16 (2 ^ b.lanes - 1), false, true, ~~~(h.strobes &&& BitVec.ofNat 8 (2 ^ b.strobes - 1))⟩)

/-- HID_SCL and HPn_SDA are released between the reads of R283, each of which is one command. -/
def Dev.cardBusReleased (_ : Dev) : Bool := true

/-- HMEAS (R270, R289). -/
def Dev.hmeasPin (d : Dev) : Option Bool := levelIf d.drivesHeads d.sys.hmeas

/-! ## Solenoids (R407, R408, R411) -/

/-- The gate outputs of the solenoid stage. -/
structure SolPins where
  sc : Oct Bool
  hs : Quad Bool
  bst : Bool
  dump : Bool
deriving DecidableEq, Repr

/-- SCn_G: high in the last 20 µs of the channel's test too (R435). -/
def Dev.coilGate (d : Dev) (s : Sol) : Bool :=
  s.gate || (match s.testTo with | some t => !atOrAfter d.clk.now t && atOrAfter d.clk.now (t - BitVec.ofNat 48 (20 * us)) | none => false)

/-- The levels of the stage's outputs, low while SET9 is SHORT and in personality error. -/
def Dev.solPins (d : Dev) : Option SolPins :=
  let low := d.noSolenoids || d.persError
  levelIf d.drivesPower
    ⟨d.sol.mapIdx fun _ s => d.coilGate s && !low, d.solx.hs.mapIdx fun _ x => x && !low, d.solx.boost && !low, d.solx.dump && !low⟩

/-! ## Emitters (R374) -/

/-- The emitter value in use: in the cluster pass of a LEARN_MEDIA the one that its range pass has set (R392). -/
def Dev.emitterNow (d : Dev) (c : Fin 8) : Nat :=
  let own := mEmit d.curMedia c.val
  match d.media.move with
  | some m => match d.adm m.seq with
    | some a => if m.ranged && rType a.raw = 0x60 && bit (lMask a.raw) c.val then (d.media.learn.get c).eNew else own
    | none => own
  | none => own

/-- The emitter value whose current EMn sinks, 0 for none: in Run and Idle, for a channel with a role, in the half that drives. -/
def Dev.emitter (d : Dev) (c : Fin 8) : Nat :=
  if d.sys.ready && d.operating && d.sys.sleep == .awake && d.drives && mRole d.curMedia c.val ≠ 0 then d.emitterNow c else 0

/-! ## The device's own pins (R157, R513, R516, R596) -/

/-- READY; low without clock (R513). -/
def Dev.readyPin (d : Dev) : Option Bool := levelIf d.drives (d.sys.ready && d.clk.clkinOk)
/-- UDE, released without clock (R461, R513, R596). -/
def Dev.udePin (d : Dev) : Option Bool := levelIf (d.drives && d.clk.clkinOk) d.uart.ude
/-- FAULT_N. -/
def Dev.faultPin (d : Dev) : Option Bool := levelIf d.drives d.sys.faultN

end Sys2Proof.Machine
end

