-- ==== Sys2Proof/Machine/Pulses.lean ====
section
/-! DEFINITION. The pulses of solenoid records and of cutters: the conditions under which one begins, its phases, and
the refusal of a record that cannot begin in time (R412 to R432, R439). -/

namespace Sys2Proof.Machine

/-- The units of the times of a SOLENOID record: 100 µs in timestamp units. -/
def hundred : Nat := 100 * us

/-- Power of the exponential means of the ledger: mean of a value with weight 1/16 (R554; log entry 19). -/
def mean16 (old v : Nat) : Nat := (15 * old + v) / 16

/-- The baseline of the first 16 values: the mean of the n seen so far (log entry 19). -/
def base16 (old n v : Nat) : Nat := if 16 < n then old else (old * (n - 1) + v) / max n 1

/-! ## When a pulse begins (R425 to R428) -/

/-- Whether another channel of the pair is in a peak phase. -/
def Dev.pairPeak (d : Dev) (r : SolRun) : Bool :=
  [r.ch, mateOf r.ch].any fun c => (d.sol.get c).phase == .peak && (d.sol.get c).owner != some r.seq

/-- The hold phases of other records on the pair: hold_level and planned end. -/
def Dev.pairHolds (d : Dev) (r : SolRun) : List (Nat × Nat) :=
  match (d.sol.get (mateOf r.ch)).phase, d.runOn (mateOf r.ch) with
  | .hold, some o =>
    if o.seq = r.seq then [] else
    [(o.hold, o.holdTime * hundred - min (o.holdTime * hundred) (since d.clk.now (d.sol.get (mateOf r.ch)).phaseTs))]
  | _, _ => []

/-- Milliseconds until a coil's model, without current, is at the start limit (R427, R430). -/
def coolMs : Nat → Int → Nat
  | 0, _ => 0
  | n + 1, th => if th / 65536 ≤ 960 then 0 else 1 + coolMs n (th + (0 - th) / 65536)

/-- The record that has begun on a channel of a run and holds it. -/
def Dev.holder (d : Dev) (r : SolRun) : Option SolRun :=
  d.solx.runs.find? fun o => o.seq ≠ r.seq && o.begun && o.chans.any fun c => r.chans.contains c

/-- The conditions of R425 that a run's next pulse fails, in their order: code, fault record and the units after which
the condition could hold (R426, R427); the stroke of a CUT waits for a closed cover too (R386). -/
def Dev.pulseHeld (d : Dev) (r : SolRun) : List (W16 × W32 × Nat) :=
  let holds := d.pairHolds r
  let peak := if d.pairPeak r then [(cHighSideBusy, (0 : W32), 0)] else []
  let budget := if 15 * d.solCap < max r.peak r.hold + holds.foldl (fun n h => n + h.1) 0 then
    [(cHighSideBusy, (0 : W32), holds.foldl (fun n h => max n h.2) 0)] else []
  let hot := if 960 < (d.sol.get r.ch).theta then [(cCoilHot, (0 : W32), coolMs 262144 (d.sol.get r.ch).th * ms)] else []
  let busy := match d.holder r with
    | none => []
    | some o =>
      let last := o.start0 + BitVec.ofNat 48 (((o.count - 1) * o.period + o.holdTime) * hundred)
      [(cChannelBusy, (0 : W32), if atOrAfter d.clk.now last then 0 else since last d.clk.now)]
  let fault := match d.pausedBy with | some x => [(x.code, x.seq, 0)] | none => []
  let open_ := if d.media.cover && ((d.adm r.seq).map fun a => rType a.raw == 0x30).getD false then [(cCoverOpen, (0 : W32), 0)] else []
  let fenced := if r.chans.any fun c => d.solx.fenced.get (pairOf c) then [(cChannelFenced, (0 : W32), 0)] else []
  peak ++ budget ++ hot ++ busy ++ fault ++ open_ ++ fenced

/-- The planned start of a run's next pulse (R417). -/
def SolRun.plannedAt (r : SolRun) : Ts := r.start0 + BitVec.ofNat 48 (r.index * r.period * hundred)

/-- Whether a run waits for its next pulse now: its channel idle, and a later pulse's planned time reached. -/
def Dev.awaitsPulse (d : Dev) (r : SolRun) : Bool :=
  r.stop.isNone && (if r.begun then (d.sol.get r.ch).phase == .idle && r.index < r.count && atOrAfter d.clk.now r.plannedAt else true)

/-- Order of R24 and R27 among waiting runs: later pulses first, then the stroke of a CUT, which is under way and has no deadline,
then the earlier deadline, then the sequence. -/
def ranksBefore (now : Ts) (a b : SolRun) : Bool :=
  if a.begun != b.begun then a.begun else
  match a.deadline, b.deadline with
  | some x, some y =>
    let dx := signed 48 (x - now).toNat
    let dy := signed 48 (y - now).toNat
    if dx ≠ dy then decide (dx < dy) else laterSeq b.seq a.seq
  | some _, none => false
  | none, some _ => true
  | none, none => laterSeq b.seq a.seq

/-- Whether a channel of a run is under test (R435). -/
def Dev.underTest (d : Dev) (r : SolRun) : Bool :=
  r.chans.any fun c => match (d.sol.get c).testTo with | some t => !atOrAfter d.clk.now t | none => false

/-- Whether a run's next pulse may begin: every condition holds and no run of its pair that could begin ranks before it
(R425, R427). -/
def Dev.mayPulse (d : Dev) (r : SolRun) : Bool :=
  d.awaitsPulse r && (d.pulseHeld r).isEmpty && !d.underTest r &&
    !(d.solx.runs.any fun o => o.seq ≠ r.seq && pairOf o.ch == pairOf r.ch && d.awaitsPulse o && (d.pulseHeld o).isEmpty && ranksBefore d.clk.now o r)

/-! ## The phases (R415, R416, R423, R424) -/

/-- A pulse begins: the peak phase of every channel of the run. -/
def Dev.startPulse (d : Dev) (r : SolRun) : Dev :=
  let first := !r.begun
  let late := if first then 0 else since d.clk.now r.plannedAt
  let d := if first && !((d.adm r.seq).map (·.begun)).getD false then d.begin_ r.seq else (d.setWait r.seq none).startsIn r.seq 0
  let d := if first || late = 0 then d else
    d.onAdm r.seq fun a => a.addLost late (if r.waitCode = 0 then cHighSideBusy else r.waitCode) r.waitRef (d.waitDiv a)
  let d := d.onRun r.seq fun r => { r with
    begun := true, start0 := if first then d.clk.now else r.start0, waitCode := 0, waitRef := 0 }
  let d := d.each8 r.chans fun c d => (d.gate c true).onSol c fun s => { s with
    phase := .peak, owner := some r.seq, phaseTs := d.clk.now, regulating := false, off := 0, m := 0, armed := false, lo := 0
    loTs := d.clk.now, seated := none, seatSeen := d.clk.now, sMax := 0, windows := 0, lowTs := none, strong := false
    belowTs := none, accOn := 0, accAll := 0 }
  let d := d.ledAdd (0x240 + 16 * r.ch.val + 4) 4 1
  d.stageLevels

/-- The peak phase ends: with hold_level not 0 the hold begins, else the channel is released (R415, R423). -/
def Dev.endPeak (d : Dev) (r : SolRun) : Dev :=
  let s := d.sol.get r.ch
  let d := match s.seated with
    | none => d
    | some t =>
      let d := d.onRun r.seq fun r => { r with
        seatedN := r.seatedN + 1, firstSeat := if r.seatedN = 0 then since t r.start0 / us else r.firstSeat }
      -- the ledger's seating times, 10 µs (R554)
      let a := 0x240 + 16 * r.ch.val
      let v := since t s.phaseTs / (10 * us)
      let n := d.led (a + 4) 4
      (d.ledSet (a + 8) 2 (base16 (d.led (a + 8) 2) n v)).ledSet (a + 10) 2 (if d.led (a + 10) 2 = 0 then v else mean16 (d.led (a + 10) 2) v)
  if r.hold = 0 then d.releaseRun r.ch
  else
    -- an on phase ends with the peak phase (R414)
    let d := if s.gate then d.coilOff r (4 * since d.clk.now s.gateTs) else d
    (d.each8 r.chans fun c d => d.onSol c fun s => { s with phase := .hold, phaseTs := d.clk.now, accOn := 0, accAll := 0 }).stageLevels

/-! ## Waits and refusals (R426, R427) -/

/-- Bring the wait of a run that has not begun up to the moment, and refuse a SOLENOID that cannot begin by its
deadline (R426, R427). -/
def Dev.weighRun (d : Dev) (r : SolRun) : Dev :=
  if !d.awaitsPulse r then d else
  match d.pulseHeld r with
  | [] => if r.begun then d else d.setWait r.seq none
  | (c, ref, t) :: rest =>
    let d := d.onRun r.seq fun r => { r with waitCode := c, waitRef := ref }
    if r.begun then d else
    let d := d.setWait r.seq (some (c, ref))
    match r.deadline with
    | none => d
    | some dl =>
      let worst := rest.foldl (fun (m : W16 × W32 × Nat) x => if m.2.2 < x.2.2 then x else m) (c, ref, t)
      let slack := signed 48 (dl - d.clk.now).toNat
      if slack < (worst.2.2 : Int) then
        { d with solx := { d.solx with runs := d.solx.runs.filter fun x => x.seq ≠ r.seq } }.refuse r.seq worst.1 worst.2.1
      else d

/-- The waits of every run. -/
def Dev.weighRuns (d : Dev) : Dev := d.solx.runs.foldl (fun d r => d.weighRun r) d

/-- An admitted SOLENOID record's run (R413 to R419). -/
def Dev.runOf (d : Dev) (a : Adm) : SolRun :=
  let r := a.raw
  let p := d.trimPulse (recPulse r)
  { seq := rSeq r, ch := fin8Of (sChannel r), paired := sPairing r = 1, count := sCount r, peak := p.peak, peakMax := p.peakMax,
    hold := p.hold, holdTime := if p.hold = 0 then 0 else p.holdTime, period := sPeriod r,
    deadline := some (a.admitTs + BitVec.ofNat 48 (sDelay r * us)), admitTs := a.admitTs }

end Sys2Proof.Machine
end

