-- ==== Sys2Proof/Machine/Stores.lean ====
section
/-! DEFINITION. A store of the cellar: the set that a CORK pulse fixes, and what each sector of it holds (R476, R477,
R485 to R489). -/

namespace Sys2Proof.Machine

/-- The resistance fields of a port, two dots to three bytes (R476). -/
def Dev.resistanceBytes (d : Dev) (p : Fin 4) : List Byte :=
  let ws := expandDots (d.heads.get p).dots 4096 0
  let rs := ws.map wRes
  ((List.range 2048).map fun i => leBytes 3 (rs.getD (2 * i) 0 + 4096 * rs.getD (2 * i + 1) 0)).flatten

/-- The grown entries of a port, mode both and gain 96, ascending (R183, R476). -/
def Dev.grownBytes (d : Dev) (p : Fin 4) : List Byte :=
  ((d.heads.get p).grown.map fun x => leBytes 4 (x + 96 * 65536)).flatten

/-- The 4 KiB of the ageing ledger (R554). -/
def Dev.ledgerBytes (d : Dev) : List Byte := (List.range 4096).map fun i => ledgerByte d.age.ledger i

/-- Record i of the store set (R485): the vintage in use is the newest one (log entry 20); a formed secondary holds the
primary's (R585, R587). -/
def Dev.storeRecord (d : Dev) (i : Nat) : List Byte :=
  if i < 4 then d.resistanceBytes (fin4Of i)
  else if i < 8 then d.grownBytes (fin4Of (i - 4))
  else if i = 64 then d.ledgerBytes
  else match d.cel.pendingSet.find? fun x => x.1 == i with
    | some x => x.2
    | none => match (if d.pairSecondary then d.link.records.find? (fun x => x.1 == i && x.2.2) else none) with
      | some x => x.2.1
      | none => match d.readRecord i with | .content b _ => b | _ => []

/-- The header of a store's copy (R477). -/
def Dev.storeHeader (d : Dev) (st : Store) (copy : Nat) : List Byte :=
  let dir := (st.records.map fun b => leBytes 2 b.length ++ leBytes 4 (if b.isEmpty then 0 else (crc32c b).toNat)).flatten
  let h := leBytes 4 0x4B545631 ++ leBytes 4 st.vintage.toNat ++ [BitVec.ofNat 8 copy, BitVec.ofNat 8 (b2n st.bankB)] ++
    leBytes 2 65 ++ leBytes 6 st.ts.toNat ++ [0, 0] ++ leBytes 4 d.pers.digest.toNat ++ zeros 40 ++ dir ++ zeros 54
  h ++ leBytes 4 (crc32c h).toNat

/-- The record that lies at byte k of logical sector n of a copy, with its index and the byte's offset in it. -/
def recAt (n k : Nat) : Option (Nat × Nat) :=
  (List.range 65).findSome? fun i =>
    let (s, o) := recPlace i
    let room := if i < 4 then 6144 else if i < 8 then 512 else if i < 16 then 2048 else if i < 28 then 256 else if i < 32 then 512
                else if i < 64 then 256 else 4096
    let pos := n * 512 + k
    let start := s * 512 + o
    if start ≤ pos && pos < start + room then some (i, pos - start) else none

/-- The 512 bytes that a store programs into logical sector n of a copy, n from 1 to 118; erased where no record
lies. -/
def Store.sectorBytes (st : Store) (n : Nat) : List Byte :=
  (List.range 512).map fun k => match recAt n k with
    | some (i, o) => (st.records.getD i []).getD o 0xFF
    | none => 0xFF

/-- Whether a TASTE_HEAD or a LEARN_MEDIA is in progress (R486). -/
def Dev.measuring (d : Dev) : Bool :=
  d.taste.isSome || d.rings.admitted.any fun a => a.begun && rType a.raw == 0x60

/-- Accept a CORK pulse (R484 to R488): fix the store set and begin to erase the target bank. -/
def Dev.acceptPulse (d : Dev) : Dev :=
  let c := d.cel
  let d := { d with cel.pulseHeld := false }
  if c.worn then d.raise { code := cCellarWorn, sev := some .derate, lvl := .device,
                           detail := cellarDetail d.vintageNow 0 0xFF 0xFF 0xFFFF 0 0 0 }
  else if !c.tableOk then d
  else
    let target := match c.newest with | some b => !b | none => false
    let number := max (c.number false) (c.number true) + 1
    let st : Store := { records := (List.range 65).map d.storeRecord, vintage := BitVec.ofNat 32 number, bankB := target, ts := d.clk.now }
    { d with cel.store := some st, cel.pendingSet := [] }

/-- A pulse held back is accepted once nothing keeps it (R486, R487). -/
def Dev.heldPulse (d : Dev) : Dev :=
  if d.cel.pulseHeld && d.cel.store.isNone && !d.measuring then d.acceptPulse else d

/-- Whether a band is printing in the sense of R352. -/
def Dev.printing (d : Dev) : Bool :=
  match d.line.band with
  | none => false
  | some b => 0 < b.next && b.phase != .resting

/-- Whether a cellar read that can be served is under way (R490). -/
def Dev.readUnderWay (d : Dev) : Bool := d.cel.reads.any fun x => d.readRecord x.2 != .wait

/-- A store is suspended as long as a band is printing, unless it was starved and has resumed, for a read, and while a domain runs from its
fallback source (R490, R491, R510). -/
def Dev.suspendStore (d : Dev) : Dev :=
  match d.cel.store with
  | none => d
  | some st =>
    if st.suspended.isNone && ((d.printing && !st.starved) || d.readUnderWay || d.onFallback) then { d with cel.store := some { st with suspended := some d.clk.now } } else d

end Sys2Proof.Machine
end

