-- ==== Sys2Proof/Machine/Cuts.lean ====
section
/-! DEFINITION. The aux axis and the steps of a CUT (R355, R356, R402 to R405). -/

namespace Sys2Proof.Machine

/-! ## AX3 -/

/-- Position of AX3, counted from its zero. -/
def Dev.auxPos (d : Dev) : Int := if d.auxDc then d.mot.aenc - d.mot.auxFrom else d.axes.d.pos

/-- The present position of AX3 becomes 0 (R402). -/
def Dev.auxZero (d : Dev) : Dev :=
  let d := if d.auxDc then { d with mot := { d.mot with auxFrom := d.mot.aenc } } else d.onAxis 3 fun a => { a with pos := 0 }
  { d with mot := { d.mot with auxHomed := true } }

/-- AX3 moves to a position, by the record's ramp table or as a DC axis (R355, R356; log entry 21). -/
def Dev.startAux (d : Dev) (goal : Int) (table : Nat) : Dev :=
  let pos := d.auxPos
  if goal = pos then d else
  let d := energise 3 (mAxis d.curMedia 3) d
  if d.auxDc then
    { d with mot := { d.mot with auxTarget := some (d.mot.auxFrom + goal), auxBrake := false, auxTs := d.clk.now, auxCounts := [] } }.onAxis 3
      fun a => { a with fwd := decide (pos < goal) }
  else
    let start := match d.axes.d.readyTs with | some t => if atOrAfter d.clk.now t then d.clk.now else t | none => d.clk.now
    (d.startSegs 3 (tens start)).onAxis 3 fun a => Axis.nextSegs 200 { a with segs := auxPlan (d.secBody table) (goal - pos).natAbs (decide (pos < goal)) }

/-- The time before AX3's first step (R363). -/
def Dev.auxWait (d : Dev) : Nat := if d.axes.d.energised then 0 else 2 * ms

/-- AX3 comes to rest: hold_level (R361). -/
def Dev.restAux (d : Dev) : Dev :=
  (d.restAxis 3).onAxis 3 fun a => { a with segs := [], done := 0 }

/-! ## The steps of a CUT (R402) -/

/-- Whether a sensor channel reads MEDIA. -/
def Dev.readsMedia (d : Dev) (c : Nat) : Bool := (d.sense.get (fin8Of c)).space == some false

/-- home_channel of the current cutter block, none for 0xFF. -/
def Dev.homeChan (d : Dev) : Option Nat := let h := cutField d.curMedia 0 1; if h < 8 then some h else none

/-- The CUT completes, or ends with what it reached. -/
def Dev.endCut (d : Dev) (c : CutRt) (e : Ending) : Dev :=
  let d := match d.run c.seq with | some r => d.freeRun r | none => d
  { d with media.cut := none }.close c.seq { e with
    result := d.cutResult c }

/-- The CUT is done: the code of a mark not found, or of a trim (R402, R403). -/
def Dev.cutDone (d : Dev) (c : CutRt) : Dev :=
  d.endCut c (if c.code ≠ 0 then { code := c.code, own := true } else { code := d.trimReason c.seq })

/-- Wear of the cutter: strokes, their mean and its baseline, and CUTTER_SLOW (R554). -/
def Dev.ageStroke (d : Dev) (us_ : Nat) : Dev :=
  let n := d.led 0x2C0 4 + 1
  let base := base16 (d.led 0x2C4 4) n us_
  let mean := if n = 1 then us_ else mean16 (d.led 0x2C8 4) us_
  let d := ((d.ledSet 0x2C0 4 n).ledSet 0x2C4 4 base).ledSet 0x2C8 4 mean
  let limit := cutField d.curMedia 2 2 * 1000 * 3 / 4
  if limit ≤ mean then d.ageOnce cCutterSlow 4 0 mean base limit else d

/-- Step 6: the backfeed, once no PAUSE holds (R405). -/
def Dev.cutBackfeed (d : Dev) (c : CutRt) : Dev :=
  match d.adm c.seq with
  | none => d
  | some a =>
    if cBack a.raw = 0 then d.cutDone c
    else match d.heldBy a.raw with
      | some r => { d with media.cut := some { c with step := .backfeed, waiting := true } }.setWait c.seq (some (r.code, r.seq))
      | none =>
        let goal := c.goal.getD (d.mot.bound - cBack a.raw)
        let d := { d with media.cut := some { c with step := .backfeed, waiting := false, goal := some goal } }.setWait c.seq none
        d.startMove d.curMedia (mkLadder (d.secBody (rRamp a.raw)) (leadOf d.curMedia)) goal (rRate a.raw)

/-- Step 5: the cutter is home again. -/
def Dev.cutHome (d : Dev) (c : CutRt) : Dev :=
  let t := since d.clk.now c.strokeTs / us
  (d.ageStroke t).cutBackfeed { c with strokeTime := t, goal := none }

/-- The stroke begins (step 4). -/
def Dev.beginStroke (d : Dev) (c : CutRt) (a : Adm) : Dev :=
  let m := d.curMedia
  let c := { c with step := .stroke, strokeTs := d.clk.now, waiting := false }
  let d := { d with media.cut := some c }.setWait c.seq none
  if cCutter a.raw = 0 then
    let full := eRatio (mAxis m 3)
    let len := if cKind a.raw = 1 then full * cutField m 1 1 / 256 else full
    let d := (d.startsIn c.seq d.auxWait).startAux (d.auxPos + len) (rRamp a.raw)
    if len = 0 then { d with media.cut := some { c with step := .back } }.startAux 0 (rRamp a.raw) else d
  else
    let p := d.trimPulse (cutPulse m)
    -- what the section in use at the stroke says decides about TRIMMED (R403)
    let d := d.onAdm c.seq fun a => { a with trimmed := decide (p ≠ cutPulse m) }
    let r : SolRun := {
      seq := c.seq, ch := fin8Of (cChannel a.raw), paired := false, count := 1, peak := p.peak, peakMax := p.peakMax, hold := p.hold
      holdTime := if p.hold = 0 then 0 else p.holdTime, period := 0, deadline := none, admitTs := d.clk.now }
    { d with solx := { d.solx with runs := d.solx.runs ++ [r] } }

/-- Step 4 waits for the media and AX3 at rest, no PAUSE and a closed cover (R386, R405). -/
def Dev.cutStroke (d : Dev) (c : CutRt) : Dev :=
  match d.adm c.seq with
  | none => d
  | some a =>
    match d.heldBy a.raw with
    | some r => { d with media.cut := some { c with step := .stroke, waiting := true } }.setWait c.seq (some (r.code, r.seq))
    | none => if d.media.cover || !d.axes.d.segs.isEmpty then { d with media.cut := some { c with step := .stroke, waiting := true } } else d.beginStroke c a

/-- Step 3: the advance (R402): with cut_align set, a search. -/
def Dev.cutAdvance (d : Dev) (c : CutRt) : Dev :=
  match d.adm c.seq with
  | none => d
  | some a =>
    let align := cutField d.curMedia 4 1
    let c := { c with step := .advance, code := if align ≠ 0 then cMarkNotFound else 0 }
    if cAdvance a.raw = 0 then d.cutStroke c else
    let goal := d.mot.bound + cAdvance a.raw
    { d with media.cut := some { c with goal := some goal }, mot.overshoot := 0 }.startMove d.curMedia
      (mkLadder (d.secBody (rRamp a.raw)) (leadOf d.curMedia)) goal (rRate a.raw)

/-- A CUT begins: home check and homing (steps 1 and 2). A channel that has become blind
refuses it (R400), and a trim under NO_TRIM that its admission did not meet (R403). -/
def Dev.beginCut (d : Dev) (a : Adm) : Dev :=
  let r := a.raw
  let aux := cCutter r = 0
  let align := cutField d.curMedia 4 1
  if align ≠ 0 && mBlind d.curMedia (align - 1) then d.refuse (rSeq r) cSensorBlind 0 else
  if rNoTrim r && (d.trims r).isSome then d.refuse (rSeq r) cSolenoidTrim 0 else
  let away := match d.homeChan with | some h => !d.readsMedia h | none => false
  if away && !(aux && !d.mot.auxHomed) then d.refuse (rSeq r) cCutterNotHome 0 else
  -- without homing or advance the stroke's first step or pulse is the record's (R139)
  let d :=
    if aux && !d.mot.auxHomed && away then d.beginIn (rSeq r) d.auxWait
    else if cAdvance r ≠ 0 then d.beginIn (rSeq r) (d.energiseWait d.curMedia)
    else { d.beginOwed (rSeq r) with mot.table := rRamp r }
  let d := { d.restartMeans with mot.overshoot := 0 }
  let c : CutRt := { seq := rSeq r, step := .advance, startPos := d.mot.bound }
  if aux && !d.mot.auxHomed then
    match d.homeChan with
    | none => { d with mot := { d.mot with auxHomed := true } }.cutAdvance c
    | some _ =>
      if away then
        let stroke := eRatio (mAxis d.curMedia 3)
        { d with media.cut := some { c with step := .homing, strokeTs := d.clk.now } }.startAux (d.auxPos - 2 * stroke) (rRamp r)
      else d.auxZero.cutAdvance c
  else d.cutAdvance c

/-- Homing ends where home_channel reads MEDIA: that position becomes 0 (step 2). -/
def Dev.homingDone (d : Dev) (c : CutRt) : Dev :=
  (d.auxZero.stopAux).cutAdvance c

/-- AX3 has reached the end of its travel during a CUT: out, back, or, at the end of the homing travel, nowhere. -/
def Dev.auxArrived (d : Dev) : Dev :=
  let d := d.restAux
  match d.media.cut with
  | none => d
  | some c =>
    let table := match d.adm c.seq with | some a => rRamp a.raw | none => 0
    match c.step with
    -- a stroke that still waits has not begun
    | .stroke => if c.waiting then d else { d with media.cut := some { c with step := .back } }.startAux 0 table
    | .back => match d.homeChan with
      | none => d.cutHome c
      | some h => if d.readsMedia h then d.cutHome c else d
    | _ => d

/-- The pulse of a CUT has been released: without a home channel the cutter is home (step 5). -/
def Dev.cutReleased (d : Dev) (seq : W32) : Dev :=
  match d.media.cut with
  | none => d
  | some c =>
    if c.seq ≠ seq || c.step ≠ .stroke then d else
    let c := { c with step := .back }
    let d := { d with media.cut := some c }
    match d.homeChan with
    | none => d.cutHome c
    | some h => if d.readsMedia h then d.cutHome c else d

/-- A CUT goes on once what it waited for is over (R405). -/
def Dev.resumeCut (d : Dev) : Dev :=
  match d.media.cut with
  | none => d
  | some c =>
    match d.adm c.seq with
    | none => d
    | some a =>
      if !c.waiting || (d.heldBy a.raw).isSome || d.mot.travel != .rest then d else
      match c.step with
      | .stroke => d.cutStroke c
      | .backfeed => d.cutBackfeed c
      | .advance => { d with media.cut := some { c with waiting := false } }.setWait c.seq none |>.startMove d.curMedia
          (mkLadder (d.secBody (rRamp a.raw)) (leadOf d.curMedia)) (c.goal.getD d.mot.bound) (rRate a.raw)
      | _ => d

end Sys2Proof.Machine
end

