-- ==== Sys2Proof/Machine/Begin.lean ====
section
/-! DEFINITION. How a record begins: moves, learning, tasting, adoptions, and the loads that a record needs (R18, R132
to R135, R288, R289, R348, R380, R392). -/

namespace Sys2Proof.Machine

/-! ## Moves -/

/-- A record moves the media from rest to a goal. -/
def Dev.beginTravel (d : Dev) (a : Adm) (goal : Int) : Dev :=
  let m := d.curMedia
  let d := { d with media.move := some { seq := rSeq a.raw, startPos := d.mot.bound, goal := goal, fwd := decide (d.mot.bound ≤ goal) }, mot.overshoot := 0 }
  d.restartMeans.startMove m (mkLadder (d.secBody (rRamp a.raw)) (leadOf m)) goal (rRate a.raw)

/-- FEED and BACKFEED (R348). -/
def Dev.beginFeed (d : Dev) (a : Adm) : Dev :=
  let dist : Int := rDist a.raw
  (d.beginIn (rSeq a.raw) (d.energiseWait d.curMedia)).beginTravel a (if rType a.raw = 0x20 then d.mot.bound + dist else d.mot.bound - dist)

/-- SEEK_MARK: forward to the search limit, until an edge gives the target (R380). A sensor that has become blind refuses
it (R400). -/
def Dev.beginSeek (d : Dev) (a : Adm) : Dev :=
  if mBlind d.curMedia (kSensor a.raw) then d.refuse (rSeq a.raw) cSensorBlind 0
  else (d.beginIn (rSeq a.raw) (d.energiseWait d.curMedia)).beginTravel a (d.mot.bound + rDist a.raw)

/-- LEARN_MEDIA: its section becomes the current one, and the range pass begins (R391, R392). -/
def Dev.beginLearn (d : Dev) (a : Adm) : Dev :=
  let d := (d.makeCurrent (lSec a.raw)).useMedia (lSec a.raw)
  let m := d.curMedia
  let fresh (c : Fin 8) (_ : Learn) : Learn := { eOld := mEmit m c.val, eNew := mEmit m c.val }
  ({ d with media.learn := d.media.learn.mapIdx fresh }.beginIn (rSeq a.raw) (d.energiseWait m)).beginTravel a (d.mot.bound + rDist a.raw)

/-! ## Tasting -/

/-- Step 1 of a tasting run: HMEAS high, every strobe inactive, an all-zero plane latched (R289). -/
def Dev.setUpTaste (d : Dev) (t : Taste) : Dev :=
  let ps := match d.adm t.seq with | some a => portsOf (rMask a.raw) | none => []
  let d := { d with taste := some { t with stage := 0, stageTs := d.clk.now, yielding := false }, sys.hmeas := true, sys.hmeasFallTs := none }
  d.each4 ps fun p d => d.onHead p fun h => { h with strobes := 0, latch := some [], latchPlane := 0, shiftReg := none, regPlane := 0 }

/-- A TASTE_HEAD begins; an open head refuses it (R288). -/
def Dev.beginTaste (d : Dev) (a : Adm) : Dev :=
  if (portsOf (rMask a.raw)).any fun p => (d.heads.get p).openPin then d.refuse (rSeq a.raw) cHeadOpen 0
  else (d.begin_ (rSeq a.raw)).setUpTaste { seq := rSeq a.raw, dot := tFirst a.raw }

/-! ## Adoptions and loads -/

/-- The completion of an ADOPT_PROFILE (R150, R151). -/
def Dev.adopted (d : Dev) (a : Adm) : Dev :=
  d.close (rSeq a.raw) { result := d.adoptResult a.raw }

/-- A cellar read that a record needs: served at once from the factory profile, else under way (R494, R498). -/
def Dev.askRead (d : Dev) (seq : W32) (i : Nat) : Dev := { d with cel.reads := (d.cel.reads.filter fun x => x.1 ≠ seq) ++ [(seq, i)] }

/-- An ADOPT_PROFILE begins: an adoption copies the section into the pending store set; a load reads the cellar (R134,
R135, R498). -/
def Dev.beginAdopt (d : Dev) (a : Adm) : Dev :=
  let r := a.raw
  let n := secNo (aType r) (aIndex r)
  let i := recOf (aType r) (aIndex r) (aSlot r)
  let d := d.begin_ (rSeq r)
  if aDir r = 0 then (d.joinSet i (d.imageOfSec n (aSlot r))).adopted a
  else if !d.cel.inUse then
    match d.readRecord i with
    | .content b _ => (d.fillFrom n (aSlot r) b).adopted a
    | _ => d.refuse (rSeq r) cCellarEmpty 0
  else
    let d := d.askRead (rSeq r) i
    if d.readRecord i == .wait then d.setWait (rSeq r) (some (cStoreBusy, 0)) else d

/-- A BAND's profile has been loaded: the checks that waited for it (R235, R345, R346). -/
def Dev.bandLoaded (d : Dev) (seq : W32) : Dev :=
  match d.adm seq with
  | none => d
  | some a =>
    match d.checkLoaded a.maps a.raw a.media with
    | .no c detail => d.close seq { res := .refused, code := c, detail := detail }
    | .go t => (d.onAdm seq fun a => { a with loadWait := false, trimmed := t }).estimate

/-- A BAND's media profile: the section that holds it, else the section it is to be loaded into, with the read under
way (R132); a BAND for which there is no section waits. -/
def Dev.seekSection (d : Dev) (a : Adm) : Dev :=
  let slot := bMedia a.raw - 0x20
  match d.holderOf slot with
  | some n => ((d.useMedia n).onAdm (rSeq a.raw) fun a => { a with media := n }).bandLoaded (rSeq a.raw)
  | none =>
    match d.victim (rSeq a.raw) with
    | none => d
    | some n =>
      let d := (d.useMedia n).onAdm (rSeq a.raw) fun a => { a with media := n }
      if d.cel.inUse then d.askRead (rSeq a.raw) (32 + slot)
      else match d.readRecord (32 + slot) with
        | .content b _ => (d.fillFrom (16 + n) slot b).bandLoaded (rSeq a.raw)
        | _ => d.refuse (rSeq a.raw) cCellarEmpty 0

/-- Whether a BAND waits for a section to load its profile into, no read being under way. -/
def Dev.wantsSection (d : Dev) (a : Adm) : Bool := a.loadWait && !(d.cel.reads.any fun x => x.1 == rSeq a.raw)

end Sys2Proof.Machine
end

