-- ==== Sys2Proof/Machine/Slices.lean ====
section
/-! DEFINITION. The press slices: which take part, what a lost one leaves to the others, and their delay margins (R238,
R245, R554, R556). -/

namespace Sys2Proof.Machine

/-- Whether a slice takes part in the press. -/
def Dev.sliceIn (d : Dev) (k : Fin 4) : Bool := let s := d.line.slices.get k; !s.fenced && !s.withdrawn

/-- The dots of a fenced slice are divided among the slices still in service. -/
def Dev.reshare (d : Dev) (p : PendLine) (k : Fin 4) : PendLine :=
  let lost := p.share.getD k.val 0
  let more := d.shares lost
  { p with share := (p.share.zipIdx).map fun x => if x.2 = k.val then 0 else x.1 + more.getD x.2 0 }

/-- The line computed and not yet fired is completed anew where the fenced slice held dots of it (R245). -/
def Dev.losePend (d : Dev) (k : Fin 4) : Dev :=
  { d with line := { d.line with
      shiftDone := d.line.shiftDone && (d.line.pend.map fun (p : PendLine) => p.share.getD k.val 0 == 0).getD true
      pend := d.line.pend.map fun p => if p.share.getD k.val 0 = 0 then p else { d.reshare p k with complete := false } } }

/-- Offset of a slice's block in the ageing ledger (R554). -/
def sliceAddr (k : Fin 4) : Nat := 0x2E0 + 8 * k.val

/-- Detail of a DELAY_MARGIN record; the slices of a formed secondary are numbered 4 to 7 (R591). -/
def Dev.marginDetail (d : Dev) (k : Fin 4) (limit : Nat) : List Byte :=
  [5, BitVec.ofNat 8 (k.val + (if d.pairSecondary then 4 else 0))] ++ leBytes 4 (d.line.slices.get k).margin ++
    leBytes 4 (d.led (sliceAddr k) 2) ++ leBytes 4 limit

/-- DELAY_MARGIN as a note, once per reset and slice. -/
def Dev.marginNote (d : Dev) (k : Fin 4) : Dev :=
  if d.age.once.contains (cDelayMargin, 0x500 + k.val) then d else
  let d := { d with age := { d.age with once := (cDelayMargin, 0x500 + k.val) :: d.age.once } }
  let detail := d.marginDetail k 102
  let d := if d.pairSecondary then d.sendEvent cDelayMargin 0 (d.scopeByte .none 0) 0 noTick 0 detail else d
  d.raise { code := cDelayMargin, sev := some .note, detail := detail }

/-- A slice leaves service for its margin; the last one stays (R556). -/
def Dev.withdraw (d : Dev) (k : Fin 4) : Dev :=
  let s := d.line.slices.get k
  let d := { d with line.slices := d.line.slices.set k { s with leaving := false } }
  if !d.sliceIn k then d
  else if d.slicesIn ≤ 1 then d.marginNote k
  else
    let d := ({ d with line.slices := d.line.slices.set k { s with leaving := false, withdrawn := true } }.ledSet (sliceAddr k + 6) 1 1).losePend k
    let detail := d.marginDetail k 51
    let d := if d.pairSecondary then d.sendEvent cDelayMargin Sev.derate.code (d.scopeByte .device 0) 0 noTick 0 detail else d
    d.raise { code := cDelayMargin, sev := some .derate, lvl := .device, detail := detail }

/-- The slices that leave at a line boundary. -/
def Dev.withdrawDue (d : Dev) : Dev :=
  let d := { d with link := { d.link with
    partnerSlices := d.link.partnerSlices.map fun n => n - d.link.partnerLeaving, partnerLeaving := 0 } }
  d.each4 (fin4.filter fun k => (d.line.slices.get k).leaving) fun k d => d.withdraw k

/-- Whether lines follow ticks, so that a line boundary is ahead. -/
def Dev.linesRun (d : Dev) : Bool := (d.line.band.map fun b => b.phase == .firing).getD false

/-- A slice's delay margin is measured: the ledger, and what the margin calls for (R554, R556). -/
def Dev.sliceMargin (d : Dev) (k : Fin 4) (m : Nat) : Dev :=
  let a := sliceAddr k
  let base := d.led a 2
  let least := d.led (a + 4) 2
  let d := { d with line.slices := d.line.slices.set k { d.line.slices.get k with margin := m } }
  let d := ((d.ledSet a 2 (if base = 0 then m else base)).ledSet (a + 2) 2 m).ledSet (a + 4) 2 (if base = 0 then m else min least m)
  if !d.sliceIn k then d
  else if m ≤ 51 then
    if d.linesRun then { d with line.slices := d.line.slices.set k { d.line.slices.get k with leaving := true } } else d.withdraw k
  else if m ≤ 102 then d.marginNote k
  else d

/-- Every slice's margin, in ascending order. -/
def Dev.sliceMargins (d : Dev) (margin : Quad (BitVec 16)) : Dev := d.each4 fin4 fun k d => d.sliceMargin k (margin.get k).toNat

end Sys2Proof.Machine
end

