-- ==== Sys2Proof/Machine/Settle.lean ====
section
/-! DEFINITION. What follows from every command: reactions that end or start, records that begin, waits that are
counted, pins that follow (R18, R24 to R27, R130, R137, R144, R157, R292, R293, R536 to R548). -/

namespace Sys2Proof.Machine

/-! ## The status queue (R144) -/

/-- STATUS_FULL while a record that is never dropped waits, until none waits and fewer than 64 are queued. -/
def Dev.settleStatus (d : Dev) : Dev :=
  if !d.rings.waiting.isEmpty && !d.rings.fullHeld then
    { d with rings := { d.rings with fullHeld := true } }.raise { code := cStatusFull, sev := some .pause, lvl := .device }
  else if d.rings.fullHeld && d.rings.waiting.isEmpty && d.rings.queue.length < 64 then
    { d with rings := { d.rings with fullHeld := false } }.endCond cStatusFull 0
  else d

/-! ## Records that begin -/

/-- Result of a record that had nothing to do. -/
def Dev.zeroResult (d : Dev) (r : List Byte) : List Byte :=
  match rType r with
  | 0x10 => zeros 12 ++ leBytes 4 0xFFFFFFFF
  | 0x60 => motionResult 0 d.mot.bound 0 (d.secRev (16 + lSec r))
  | 0x40 => leBytes 2 0 ++ leBytes 2 0 ++ leBytes 4 0 ++ sBytes 2 (d.coilTemp (fin8Of (sChannel r)))
  | 0x61 => []
  | _ => motionResult 0 d.mot.bound 0 0

/-- The reason of a ZERO record's trim, 0 for none (R33). -/
def Adm.zeroTrim (a : Adm) : W16 := if !a.trimmed then 0 else if rType a.raw = 0x10 then cCeilingTrim else cSolenoidTrim

/-- A record marked ZERO completes at the moment it would have begun (R130). -/
def Dev.doneZero (d : Dev) (a : Adm) : Dev := (d.begin_ (rSeq a.raw)).close (rSeq a.raw) { code := a.zeroTrim, result := d.zeroResult a.raw }

/-- The next record that moves the media begins: one at a time, in sequence order, from rest (R18). -/
def Dev.tryMover (d : Dev) : Option Dev :=
  if d.line.band.isSome || d.mover.isSome || d.mot.travel != .rest || !d.awake then none else
  match d.rings.admitted.find? fun a => movesMedia (rType a.raw) with
  | none => none
  | some a =>
    if (d.heldBy a.raw).isSome then none
    else if a.zero then some (d.doneZero a)
    else if rType a.raw ≠ 0x10 && d.stackDozes then none
    else match rType a.raw with
      | 0x10 => if a.loadWait then none else some (d.takeBand a)
      | 0x60 =>
        if d.cel.store.isSome then none
        else match spanBad (d.mediaSec (lSec a.raw)) with
          | some o => some (d.close (rSeq a.raw) { res := .refused, code := cBadField, detail := secDetail (16 + lSec a.raw) o })
          | none => some (d.beginLearn a)
      | 0x22 => some (d.beginSeek a)
      | 0x30 => some (d.beginCut a)
      | _ => some (d.beginFeed a)

/-- The band as it would stand if no tasting run held the heads. -/
def Dev.withoutTaste (d : Dev) : Dev := { d with taste := none, sys.hmeas := false, sys.hmeasFallTs := none }

/-- The band in progress starts once its conditions hold; a tasting run yields to a band that is ready (R293, R298). -/
def Dev.tryBand (d : Dev) : Option Dev :=
  match d.line.band with
  | none => none
  | some b =>
    if b.phase != .waiting then none
    else if d.bandMayStart b then
      -- the channels of its section are checked as the section becomes current (R373)
      match if b.next = 0 then spanBad (d.mediaSec b.media) else none with
      | some o =>
        let e := d.dropBand b.raw b.base
        some ({ e with line := { e.line with band := none, pend := none, startTs := none } }.close (rSeq b.raw)
          { res := .refused, code := cBadField, detail := secDetail (16 + b.media) o })
      | none => some d.startBand
    else match d.taste with
      | some t => if t.stage < 3 && !t.yielding && d.withoutTaste.bandMayStart b then some { d with taste := some { t with yielding := true } } else none
      | none => none

/-- Whether a band holds the heads (R288, R293). -/
def Dev.bandHolds (d : Dev) : Bool := match d.line.band with | some b => b.phase != .waiting || d.withoutTaste.bandMayStart b | none => false

/-- A tasting run begins, or goes on after it yielded (R288, R292, R293). -/
def Dev.tryTaste (d : Dev) : Option Dev :=
  if !d.awake || d.bandHolds || d.mot.travel != .rest then none else
  match d.taste with
  | some t =>
    if t.stage = 3 && ((d.adm t.seq).map fun a => (d.heldBy a.raw).isNone).getD false then some ((d.setWait t.seq none).setUpTaste t) else none
  | none =>
    match d.rings.admitted.find? fun a => rType a.raw == 0x61 with
    | none => none
    | some a =>
      -- an open head refuses the run, though the pause of that head is what holds it (R288)
      let open_ := (portsOf (rMask a.raw)).any fun p => (d.heads.get p).openPin
      let held := d.flt.active.any fun r => d.blocks r && r.covers a.raw && !(open_ && r.code == cHeadOpen)
      if held then none
      else if a.zero then some (d.doneZero a)
      else if d.cel.store.isSome || d.sys.hmeas then none
      else some (d.beginTaste a)

/-- An ADOPT_PROFILE, a ZERO SOLENOID and a finished BARRIER (R18, R26, R130, R138). -/
def Dev.tryFree (d : Dev) : Option Dev :=
  match d.rings.admitted.find? fun a => !a.begun && (rType a.raw == 0x50 && (d.heldBy a.raw).isNone && d.awake || rType a.raw == 0x40 && a.zero) with
  | some a => some (if rType a.raw = 0x40 then d.doneZero a else d.beginAdopt a)
  | none =>
    match d.rings.admitted with
    | [a] =>
      if rType a.raw ≠ 0x70 then none else
      let flush := barrierFlush a.raw && d.rings.failedSince
      let d := d.close (rSeq a.raw) { code := if flush then cFlushed else 0 }
      some { d with rings := { d.rings with flushing := flush, failedSince := false } }
    | _ => none

/-- A BAND that waits for a media section gets one (R132). -/
def Dev.tryLoad (d : Dev) : Option Dev :=
  match d.rings.admitted.find? fun a => d.wantsSection a && ((d.holderOf (bMedia a.raw - 0x20)).isSome || (d.victim (rSeq a.raw)).isSome) with
  | some a => some (d.seekSection a)
  | none => none

/-- A move that a reaction stopped goes on from rest once nothing holds it (R315, R405). -/
def Dev.tryMove (d : Dev) : Option Dev :=
  match d.media.move with
  | none => none
  | some m =>
    match d.adm m.seq with
    | none => none
    | some a =>
      if !m.paused || d.mot.travel != .rest || (d.heldBy a.raw).isSome || d.plansMissing then none else
      let goal := m.goal
      let d := { d with media.move := some { m with paused := false } }.setWait m.seq none
      some (d.startMove d.curMedia (mkLadder (d.secBody (rRamp a.raw)) (leadOf d.curMedia)) goal (rRate a.raw))

/-- The data of the band in progress end early (R116, R174). -/
def Dev.tryOverlap (d : Dev) : Option Dev :=
  match d.line.band with
  | none => none
  | some b =>
    match d.overlapAt b.raw 1000 b.base.1 b.base.2 with
    | none => none
    | some (n, c, ref) =>
      let b' := { b with overlapEnd := some (n, c, ref) }
      -- none of its lines has fired and none will: it is refused, wherever its start stands
      if b.next = 0 && n = 0 then some ((d.stopBand c ref false).endBand { res := .refused, code := c, ref := ref })
      else if (b.phase == .resting || b.phase == .waiting) && n ≤ b.next && d.line.fire.isNone then
        some { d with line := { d.line with band := some b' } }.cutBand
      else if b.overlapEnd = b'.overlapEnd then none
      else some { d with line := { d.line with band := some b' } }

/-- Whether a BAND's data certainly include the consumed block: blocks that have not come hold 4,080 bytes at most. -/
def Dev.bandNeeds (d : Dev) (raw : List Byte) : Nat → W32 → Nat → Option W32
  | 0, _, _ => none
  | f + 1, q, off =>
    if bLines raw * d.bandBytes raw ≤ off || (d.laterFirsts (rSeq raw)).contains q then none
    else match d.win.exhausted.find? fun x => x.1 == q with
    | some x => some x.2
    | none => match d.win.block q with
      | none => d.bandNeeds raw f (q + 1) (off + 4080)
      | some b => d.bandNeeds raw f (q + 1) (off + b.len)

/-- A BAND that needs a consumed block and of which no line has fired is refused (R116). -/
def Dev.tryExhausted (d : Dev) : Option Dev :=
  if d.win.exhausted.isEmpty then none else
  let fired (a : Adm) : Bool := (d.line.band.map fun b => rSeq b.raw == rSeq a.raw && 0 < b.next).getD false
  d.rings.admitted.findSome? fun a =>
    if rType a.raw ≠ 0x10 || a.zero || fired a then none else
    (d.bandNeeds a.raw 1024 (bFirst a.raw) 0).map fun ref =>
      if (d.line.band.map fun b => rSeq b.raw) = some (rSeq a.raw) then
        (d.stopBand cResendExhausted ref false).endBand { res := .refused, code := cResendExhausted, ref := ref }
      else (d.dropBand a.raw (bFirst a.raw, 0)).refuse (rSeq a.raw) cResendExhausted ref

/-- Everything that can begin begins. -/
def Dev.beginAll (d : Dev) : Nat → Dev
  | 0 => d
  | n + 1 =>
    match d.tryExhausted.orElse fun _ => d.tryOverlap.orElse fun _ => d.tryLoad.orElse fun _ => d.tryMove.orElse fun _ => d.tryMover.orElse fun _ => d.tryBand.orElse fun _ =>
        d.tryTaste.orElse fun _ => d.tryFree with
    | some e => e.beginAll n
    | none => d

/-! ## Waits (R31, R36, R149, R486, R536) -/

/-- Whether a record before this one is at its work, no reaction stopping it: then the place in the order is what holds
a record that moves the media (R18, R31). -/
def Dev.outrun (d : Dev) (a : Adm) : Bool :=
  movesMedia (rType a.raw) &&
    ((match d.line.band with
      | some b => rSeq b.raw ≠ rSeq a.raw && (b.phase == .starting || b.phase == .firing)
      | none => false) || (match d.mover with | some q => q ≠ rSeq a.raw && d.mot.travel == .planned | none => false))

/-- What a record that has not begun waits for beyond its place in the order: a reaction, a section, a store, a claim of
higher precedence. -/
def Dev.waitsFor (d : Dev) (a : Adm) : Option (W16 × W32) :=
  match d.heldBy a.raw with
  | some r => if d.outrun a then none else some (r.code, r.seq)
  | none =>
    match rType a.raw with
    | 0x10 =>
      if d.wantsSection a then some (cOutranked, 0)
      else if a.loadWait && d.readRecord (32 + (bMedia a.raw - 0x20)) == .wait then some (cStoreBusy, 0) else none
    | 0x60 =>
      if d.cel.store.isSome && d.line.band.isNone && d.mover.isNone &&
        ((d.rings.admitted.find? fun x => movesMedia (rType x.raw)).map fun x => rSeq x.raw) = some (rSeq a.raw) then some (cStoreBusy, 0) else none
    | 0x61 =>
      if d.bandHolds || d.mot.travel != .rest || d.taste.isSome then some (cOutranked, 0)
      else if d.cel.store.isSome then some (cStoreBusy, 0) else none
    | _ => none

/-- Bring every wait up to the moment. A pause of a solenoid record is R426's, a begun record's its own. -/
def Dev.weigh (d : Dev) : Dev :=
  d.rings.admitted.foldl (init := d) fun d a =>
    -- a ZERO record claims nothing, so nothing delays it (R130)
    if a.begun || a.zero || [0x00, 0x40, 0x70].contains (rType a.raw) then d
    else d.setWait (rSeq a.raw) (d.waitsFor a)

/-- A tasting run that has yielded waits for the band (R293). -/
def Dev.weighTaste (d : Dev) : Dev :=
  match d.taste with
  | some t => if t.stage = 3 then d.setWait t.seq (some (cOutranked, 0)) else d
  | none => d

/-! ## A line that ends without a tick -/

/-- A band with lines left rests on a boundary, by a stop plan at the time given (R154, R313). -/
def Dev.restBand (d : Dev) (ts : Ts) : Dev :=
  let d := d.flushTimes
  { d with line := { d.line with
      pend := none, following := none, sampled := false
      band := d.line.band.map fun b =>
        if b.phase == .firing then
          let owed := decide (0 < b.next ∧ b.next < b.lines)
          { b with phase := .resting, restAfter := none, devs := [], pauseStart := ts, pauseOwed := owed, pauses := b.pauses + b2n owed,
                   waitPeriod := pRate (rRate b.raw) }
        else { b with phase := .resting } } }

/-- The travel, or under timer ticks and at a member the time, has come to the boundary behind the line under way. -/
def Dev.atBoundary (d : Dev) (b : BandRt) : Bool :=
  if d.bandMoves then d.mot.travel == .rest || b.bound b.next ≤ d.mediaPos else atOrAfter d.clk.now d.line.planned

/-- A line that has ended and that no tick follows is closed at its boundary; a chained band's lead_in follows on (R19,
R150, R312). -/
def Dev.closeQuiet (d : Dev) : Dev :=
  match d.line.band with
  | none => d
  | some b =>
    let ended := (d.line.fire.map fun (f : FireLine) => f.ended).getD false
    let ledIn := if b.phase == .firing && b.lines ≤ b.next && b.bound b.lines ≤ d.mediaPos then
        (d.chained b).filter fun n => 0 < d.leadLines n.raw else none
    let d :=
      if !ended then d
      else match ledIn with
        | some n => d.endLine.follow n
        | none => if d.atBoundary b && (b.phase != .firing || (d.endsHere b && (!d.bandMoves || d.mot.travel == .rest))) then d.endLine else d
    match d.line.band with
    | none => d
    | some c =>
      -- under timer ticks and at a member nothing moves: the band is at rest as soon as no line fires
      if d.bandMoves || d.line.fire.isSome then d
      else if c.phase == .stopping then { d with line.band := some { c with phase := .resting } }
      else if c.phase == .firing && c.restsAt c.next then d.restBand d.line.planned
      else d

/-! ## The link (R569, R592, R597) -/

/-- The primary compares each line's check words with those of the ECHO frame (R592, R593). -/
def Dev.compareEchoes (d : Dev) : Dev :=
  if !d.pairPrimary then d else
  d.link.echoed.foldl (init := d) fun (d : Dev) (e : Ts × W32 × W32) =>
    match d.link.lineCrcs.find? fun x => x.1 == e.1 with
    | none => d
    | some own =>
      if own.2.1 ≠ e.2.1 then d.dissolve 2 0 e.1.toNat own.2.1.toNat
      else if own.2.2 ≠ e.2.2 then d.dissolve 3 0 e.1.toNat own.2.2.toNat
      else { d with link := { d.link with echoed := d.link.echoed.filter fun x => x.1 ≠ e.1
                                          lineCrcs := d.link.lineCrcs.filter fun x => x.1 ≠ e.1 } }

/-- LINK_RESEND, at most once per second (R569). -/
def Dev.settleResend (d : Dev) : Dev :=
  let due := match d.link.resendTs with | none => true | some t => d.past t (1000 * ms)
  if d.link.resends = 0 || !due then d else
  let n := d.link.resends
  { d with link := { d.link with resends := 0, resendTs := some d.clk.now } }.raise
    { code := cLinkResend, sev := some .note, detail := twinDetail 0 0xFF 0 noTick 0 n 0 }

/-- A half that takes over drives every output from the takeover line boundary on, and posts TAKEOVER there (R596, R597). -/
def Dev.takeDrive (d : Dev) : Dev :=
  match d.link.takeover with
  | none => d
  | some det =>
    { d with link := { d.link with driving := true, takeover := none, takeHeads := false } }.raise { code := cTakeover, sev := none, detail := det }

/-- The drive is taken at a line boundary, at the one after it when plane 0 of this line was shifted too early (R596). -/
def Dev.takeAtLine (d : Dev) : Dev := if d.link.takeWait then { d with link := { d.link with takeWait := false } } else d.takeDrive

/-- Entries of a TICK frame of kind 3. -/
def changeBytes (c : W32 × Nat × Nat) : List Byte := leBytes 4 c.1.toNat ++ leBytes 2 c.2.1 ++ [BitVec.ofNat 8 c.2.2]

/-- Window changes go out in TICK frames of kind 3, five to a frame (R570, R590). -/
def Dev.sendChanges (d : Dev) : Nat → Dev
  | 0 => d
  | n + 1 =>
    if !d.pairPrimary || d.link.changes.isEmpty then d else
    let now := d.link.changes.take 5
    let d := { d with link := { d.link with changes := d.link.changes.drop 5 } }
    (d.sendTick 3 0 d.clk.now 0 0 (BitVec.ofNat 8 now.length :: (now.map changeBytes).flatten)).sendChanges n

/-- TICK frame of kind 4 of a segment that starts at a time in 10 ns. -/
def Dev.sendSeg (d : Dev) (s : Seg) (start : Nat) : Dev :=
  d.sendTick 4 0 d.clk.now 0 0
    (leBytes 6 (start / 4) ++ leBytes 4 s.t ++ sBytes 4 (if s.fwd then (s.dpos : Int) else -(s.dpos : Int)) ++ leBytes 4 s.v0 ++
      leBytes 4 s.vEnd ++ leBytes 4 d.mot.l0)

/-- A stack master announces each segment of its group before the segment starts (R579); one that a member's plan may still
change waits for the plans. t is the end of the segment before. -/
def Dev.tellSegs (d : Dev) (t : Nat) : List Seg → Dev × List Seg
  | [] => (d, [])
  | s :: rest =>
    match s.told with
    | some t0 => let (d, l) := d.tellSegs (t0 + s.t) rest; (d, s :: l)
    | none =>
      let (d, l) := (d.sendSeg s t).tellSegs (t + s.t) rest
      (d, { s with told := some t } :: l)

/-- The segments of the group that a WIDE or TANDEM master has not announced. -/
def Dev.tellMembers (d : Dev) : Dev :=
  if d.mode < 2 || d.pos ≠ 0 || !d.link.driving || !(d.axes.a.segs.any fun s => s.told.isNone) then d else
  let fires := (d.line.band.map fun b => b.phase == .firing).getD false
  let n := if fires && d.plansMissing && 2 ≤ d.axes.a.segs.length then d.axes.a.segs.length - 1 else d.axes.a.segs.length
  let (d', l) := d.tellSegs d.axes.a.segTs.toNat (d.axes.a.segs.take n)
  d'.onAxis 0 fun a => { a with segs := l ++ a.segs.drop n }

/-- Whether a reaction of PAUSE or above stops a member's lines, or is about to (R38, R39). -/
def Dev.memberHeld (d : Dev) : Bool :=
  d.flt.active.any fun r => 2 ≤ r.sev.code && (r.waits || d.blocks r) && (r.lvl != .port || d.bandFeeds r.port)

/-- The PLAN frame of a member (R577). A member that a reaction of PAUSE or above stops sends none, so that the master's
next pulse stays out (R39, R573); it sends the plan it owes once nothing stops it any more. -/
def Dev.sendPlan (d : Dev) : Dev :=
  if !d.isMember || !d.link.driving then d
  else if d.memberHeld then { d with link := { d.link with planOwed := true } } else
  let d := { d with link := { d.link with planOut := true, planOwed := false } }
  let (p, missing, rest) := match d.line.band with
    | some b => if b.phase == .firing && !b.restsAt b.next then (d.line.nextPeriod, b.lacks.isSome, d.line.nextRest) else (0, false, false)
    | none => (0, false, false)
  d.sendFrame 0x21 0 ((d.clk.tickNo + 1).toNat % 65536)
    (leBytes 6 d.clk.tickNo.toNat ++ leBytes 4 p ++ [BitVec.ofNat 8 (b2n missing + 2 * b2n rest), BitVec.ofNat 8 d.slicesIn])

/-! ## The cover (R384) -/

/-- Glitch filter of COVER and of HPn_OPEN by [2:1] of their field (R281, R384). -/
def filterNs (field : Nat) : Nat := match field / 2 % 4 with | 0 => 40 | 1 => 160 | _ => 1000

/-- COVER stands at its active level. -/
def Dev.coverActive (d : Dev) : Bool := d.media.coverPin != bit (mCover d.curMedia) 0

/-- COVER_OPEN for a cover that is active. -/
def Dev.coverRaise (d : Dev) : Dev :=
  let ps := fin4.filter d.portOn
  let tick := if d.cuts ps then d.firingTick else d.nextLineTick
  let d := (d.kill ps cCoverOpen 0).shadowPorts ps
  d.raise { code := cCoverOpen, sev := some .pause, lvl := .device, job := d.bandJob,
            detail := d.senseDetail 0xFF 0 0 tick 0 }

/-- A media section whose cover_input makes the level at hand the active one finds the cover open. -/
def Dev.settleCover (d : Dev) : Dev :=
  if !d.awake || d.media.cover || !d.secOn (16 + d.mot.curMedia) || !d.coverActive then d else { d with media.cover := true }.coverRaise

/-! ## After a command -/

/-- The state that a command leaves: what its effects set going has been set going. -/
def Dev.finish (d : Dev) : Dev :=
  let d := if d.clk.linkRun || !d.link.aligned then d else { d with link := { d.link with aligned := false } }
  if !d.sys.ready then d.settleBridges.faultRelease else
  let d := (d.settleCover.lateStarts.closeQuiet.settleStatus.settleReacts 64).resumeCut
  let d := (d.weighRuns.beginAll 600).weigh.weighTaste
  let d := (d.settleReacts 64).heldPulse.suspendStore
  let d := if d.link.planOwed && !d.memberHeld then d.sendPlan else d
  let d := if d.linesRun then d else d.withdrawDue.takeDrive
  let d := ((d.compareEchoes.sendChanges 300).tellMembers).settleResend
  d.settleStatus.settleBridges.faultRelease

end Sys2Proof.Machine
end

