-- ==== Sys2Proof/Machine/Window.lean ====
section
/-! DEFINITION. The shared window and the host memory port: reads, writes, ownership, sections, blocks and gauges
(03). -/

namespace Sys2Proof.Machine

/-- Detail of window and block records (R630). -/
def winDetail (addr path sec pos : Nat) (seq expected : Nat) (attempt flags : Nat) : List Byte :=
  leBytes 4 addr ++ [BitVec.ofNat 8 path, BitVec.ofNat 8 sec] ++ leBytes 2 pos ++ leBytes 4 seq ++ leBytes 4 expected ++
    [BitVec.ofNat 8 attempt, BitVec.ofNat 8 flags]

/-! ## Where an offset lies (R93, R99, R106) -/

/-- The section that holds an offset of the profile area. -/
def secAt (a : Nat) : Nat :=
  if a < 0x5000 then (a - 0x1000) / 0x800 else if a < 0x5800 then 8 + (a - 0x5000) / 0x100 else 16 + (a - 0x5800) / 0x200

/-- Whether an offset lies in a reserved range: the two ranges of the window map, and the bytes of a section past its
maximum body. -/
def inReserved (a : Nat) : Bool :=
  (0xA00 ≤ a && a < 0x1000) || (0x7000 ≤ a && a < 0x10000) ||
    (0x1000 ≤ a && a < 0x7000 && secAddr (secAt a) + 16 + secMax (secAt a) ≤ a)

/-- Whether a host write to an offset is ignored (R92, R93). -/
def hostIgnored (a : Nat) : Bool := a < 0x1000 || inReserved a || 0x400000 ≤ a

/-- The owner byte of the structure that an offset lies in. -/
def ownerAt (a : Nat) : Nat :=
  if a < 0x7000 then secAddr (secAt a) else if a < 0x30000 then a / 0x40 * 0x40 else a / 0x1000 * 0x1000

/-- Whether a host byte is discarded: its structure is owned by the device, and it is not a release_request (R102). -/
def Dev.discards (d : Dev) (a : Nat) : Bool :=
  !hostIgnored a && d.owns (ownerAt a) && !(a < 0x7000 && a == secAddr (secAt a) + 3)

/-! ## Host writes (R100 to R103, R142) -/

/-- The effect of an owner byte that the host has set to 0xD1: a pool block is handed over for its check, a returned
status slot acknowledges the FAULT record that it held (R114, R142). -/
def Dev.handedOver (d : Dev) (a : Nat) : Dev :=
  if 0x30000 ≤ a then
    let n := (a - 0x30000) / 0x1000
    if d.win.handed.contains n then d else { d with win := { d.win with handed := d.win.handed ++ [n] } }
  else if 0x20000 ≤ a then
    let n := (a - 0x20000) / 0x40
    match d.rings.faultSlots.find? fun x => x.1 == n with
    | some x => { d with rings := { d.rings.close x.2 with faultSlots := d.rings.faultSlots.filter fun y => y.1 ≠ n } }
    | none => d
  else d

/-- The owner bytes among written cells that now give their structure to the device. -/
def Dev.nowOwned (d : Dev) (cells : List (Nat × Byte)) : List Nat :=
  (cells.map (·.1)).filter fun a => a == ownerAt a && d.owns a

/-- One host write transaction of single bytes (R101, R102): every owner is decided from the owner bytes at its start;
a change of owner takes effect at its end. -/
def Dev.hostWrite (d : Dev) (path : Nat) (cells : List (Nat × Byte)) : Dev :=
  let lost := cells.filter fun c => d.discards c.1
  let kept := cells.filter fun c => !hostIgnored c.1 && !d.discards c.1
  let d := { d with port.writeCount := d.port.writeCount + 1 }
  let d := kept.foldl (fun d c => d.poke c.1 [c.2]) d
  let d := (d.nowOwned kept).foldl (fun d a => d.handedOver a) d
  match lost with
  | [] => d
  | c :: _ => { d with port.violation := d.port.violation + 1 }.note cOwnerViolation (winDetail c.1 path 0 0 0 0 0 0)

/-- Whether some byte of a write is ignored or discarded. -/
def Dev.partLost (d : Dev) (cells : List (Nat × Byte)) : Bool := cells.any fun c => hostIgnored c.1 || d.discards c.1

/-! ## The host memory port (R83 to R94) -/

/-- What the port answers: nothing, the identity page alone, or the slice (R45, R78, R79, R513, R528). -/
inductive Answering where
  | none
  | identity
  | slice
deriving DecidableEq, Repr

/-- What the port answers now. -/
def Dev.answering (d : Dev) : Answering :=
  if !d.pers.strapsDone || !d.clk.clkinOk || d.sys.phase == .noClock || d.sys.sleep == .dormant then .none
  else if d.persError then (if d.posUnknown then .none else .identity)
  else .slice

/-- Byte address of a command-address (R83). -/
def caAddr (ca : BitVec 48) : Nat := 2 * (bits ca.toNat 44 16 * 8 + bits ca.toNat 2 0)
/-- Whether a command-address is a read. -/
def caRead (ca : BitVec 48) : Bool := ca.getLsbD 47
/-- Whether a transaction is in the device's slice (R90). -/
def Dev.caMine (d : Dev) (ca : BitVec 48) : Bool := bits (caAddr ca) 23 22 == d.pos && caAddr ca < 2 ^ 24
/-- Whether a transaction of the slice is decoded: memory space, reserved bits zero (R92). -/
def caDecoded (ca : BitVec 48) : Bool := !ca.getLsbD 46 && bits ca.toNat 15 3 == 0

/-- Offset of byte k of a burst: linear, or wrapped within an aligned 64-byte unit (R83). -/
def caByte (ca : BitVec 48) (k : Nat) : Nat :=
  let a := caAddr ca % 0x400000
  if ca.getLsbD 45 then a + k else a / 64 * 64 + (a % 64 + k) % 64

/-- A transaction counted by R92. -/
def Dev.undecoded (d : Dev) (ca : BitVec 48) : Dev :=
  { d with port := { d.port with undecoded := d.port.undecoded + 1, lastUndecoded := ca } }

/-- A read transaction of some words. -/
def hostReads (ca : BitVec 48) (caDone : Bool) (words : Nat) (d : Dev) : Dev :=
  let d := { d with port.dq := none }
  if !caDone || d.answering == .none || !d.caMine ca then d else
  let offs := (List.range (2 * words)).map (caByte ca)
  if d.answering == .identity then
    let offs := offs.takeWhile (· < 0x200)
    if offs.isEmpty || !caDecoded ca then d
    else { d with port := { d.port with
      readCount := d.port.readCount + 1, dq := if d.link.driving then some (offs.map d.winByte) else none } }
  else if !caDecoded ca then d.undecoded ca
  else
    let served := offs.takeWhile (· < 0x400000)
    let odd := served.length < offs.length || served.any inReserved
    let bytes := served.map d.winByte
    let d := { d with port := { d.port with readCount := d.port.readCount + 1, dq := if d.link.driving then some bytes else none } }
    if odd then d.undecoded ca else d

/-- The bytes that a write burst carries whole and unmasked, with their offsets (R87, R88). -/
def burstCells (ca : BitVec 48) (data : List (Byte × Bool)) : List (Nat × Byte) :=
  ((data.take (data.length / 2 * 2)).zipIdx).filterMap fun (b, k) => if b.2 then none else some (caByte ca k, b.1)

/-- Apply an xSPI write, or in a formed secondary put it into its queue (R590). -/
def Dev.busWrite (d : Dev) (cells : List (Nat × Byte)) : Dev :=
  if d.pairSecondary then
    { d with link := { d.link with queue := d.link.queue ++ [{ count := d.port.writeCount, fromLink := false, ts := d.clk.now, cells := cells }] } }
  else d.hostWrite 0 cells

/-- A write transaction: ignored before READY, yet a decoded one counts (R92, R94, R95). A half that waits for its
takeover applies what comes meanwhile (R91). -/
def hostWrites (ca : BitVec 48) (caDone : Bool) (data : List (Byte × Bool)) (d : Dev) : Dev :=
  if !caDone || d.answering != .slice || !d.caMine ca then d
  else if !caDecoded ca then d.undecoded ca
  else
    let cells := burstCells ca data
    let d :=
      if !d.sys.ready then { d with port := { d.port with prewrite := d.port.prewrite + 1, writeCount := d.port.writeCount + 1 } }
      else if !d.link.driving && !d.link.formed && d.link.takeover.isNone then { d with port.writeCount := d.port.writeCount + 1 }
      else d.busWrite cells
    if cells.any fun c => hostIgnored c.1 then d.undecoded ca else d

/-- XSPI_READ: rw of the command-address decides the direction (R83); one that says write carries no data here. -/
def xspiRead (ca : BitVec 48) (caDone : Bool) (words : Nat) (d : Dev) : Dev :=
  if caRead ca then hostReads ca caDone words d else hostWrites ca caDone [] d

/-- XSPI_WRITE: rw of the command-address decides the direction (R83); one that says read clocks as many words. -/
def xspiWrite (ca : BitVec 48) (caDone : Bool) (data : List (Byte × Bool)) (d : Dev) : Dev :=
  if caRead ca then hostReads ca caDone (data.length / 2) d else hostWrites ca caDone data d

/-- XSPI_READ. -/
def execXspiRead (ca : BitVec 48) (caDone : Bool) (words : Nat) (s : State) : Host.Outcome State Fault Refusal :=
  .next { s with dev := (xspiRead ca caDone words s.dev).finish }

/-- XSPI_WRITE. -/
def execXspiWrite (ca : BitVec 48) (caDone : Bool) (data : List (Byte × Bool)) (s : State) : Host.Outcome State Fault Refusal :=
  .next { s with dev := (xspiWrite ca caDone data s.dev).finish }

/-! ## Profile sections (R108, R110, R371) -/

/-- What is wrong with the header of section n at its hand-over (R108). -/
def Dev.sectionFault (d : Dev) (n : Nat) : Option W16 :=
  let h := d.rams (secAddr n) 16
  if le h 1 1 ≠ secType n || le h 2 1 ≠ secIndex n || le h 4 2 = 0 || secMax n < le h 4 2 then some cSectionField
  else if le h 12 4 ≠ (secCrc h (d.secBody n)).toNat then some cSectionCrc
  else none

/-- A media section handed over has no blind channel; a channel that no section in force has blind is blind no longer (R400). -/
def Dev.unblind (d : Dev) (n : Nat) : Dev :=
  let d := if le (d.mediaSec n) 0x2D 1 = 0 then d else (d.poke (secAddr (16 + n) + 0x2D) [0]).sealSec (16 + n)
  fin8.foldl (init := d) fun d c =>
    if fin4.any fun s => d.secOn (16 + s.val) && bit (le (d.mediaSec s.val) 0x2D 1) c.val then d else d.endCond cSensorBlind c.val

/-- The check of a section that the host has handed over. A media section filled by the host holds no slot any longer
(R371). -/
def sectionHandover (n : Nat) (d : Dev) : Dev :=
  if !d.operating || !d.owns (secAddr n) || d.secOn n then d else
  match d.sectionFault n with
  | some c => (d.handBack (secAddr n)).note c (winDetail (secAddr n) 0 (16 * secType n + secIndex n) 0 0 0 0 0)
  | none =>
    let d := d.setSec n true
    if secType n = 3 then ({ d with win := { d.win with loaded := d.win.loaded.set (fin4Of (secIndex n)) none } }.unblind (secIndex n)).syncChannels
    else d

/-- Whether an axis decelerates along a ramp table (R110). -/
def Dev.followsTable (d : Dev) (n : Nat) : Bool :=
  secType n == 1 && n == d.mot.table && (d.mot.travel == .stopping || d.mot.travel == .returning || !d.axes.d.segs.isEmpty)

/-- Give a section back at the host's request (R110). -/
def Dev.releaseSection (d : Dev) (n : Nat) : Dev :=
  if d.secOn n && d.ram (secAddr n + 3) == 0x5A && !d.secNamed n && !d.followsTable n then
    ((d.setSec n false).poke (secAddr n + 3) [0]).handBack (secAddr n)
  else d

/-- SECTION_RELEASE while no band or feed runs; while one runs, the line boundary releases (R110). -/
def sectionRelease (n : Nat) (d : Dev) : Dev :=
  if !d.operating || (d.line.band.map fun b => b.phase != .waiting).getD false || d.mover.isSome then d else d.releaseSection n

/-- PROFILE_SECTION_HANDOVER. -/
def execProfileSectionHandover (sec : Fin 28) (s : State) : Host.Outcome State Fault Refusal :=
  .next { s with dev := (sectionHandover sec.val s.dev).finish }

/-- SECTION_RELEASE. -/
def execSectionRelease (sec : Fin 28) (s : State) : Host.Outcome State Fault Refusal :=
  .next { s with dev := (sectionRelease sec.val s.dev).finish }

/-! ## Pool blocks (R113 to R116, R118) -/

/-- Hand a block back and ask for it again: attempt is the number of the request (R115, R153). -/
def Dev.askAgain (d : Dev) (n : Nat) (seq : W32) (attempt : Nat) (code : W16) (flags : Byte) : Dev :=
  let d := d.handBack (poolBlock n)
  let d := { d with
    port.resends := d.port.resends + 1
    win := { d.win with awaiting := (seq, attempt) :: d.win.awaiting.filter fun x => x.1 ≠ seq } }
  d.postResend code n seq attempt flags

/-- A third re-send has failed: the block_seq is consumed, and the fault takes the request's place (R116). -/
def Dev.exhausted (d : Dev) (n : Nat) (seq : W32) (flags : Byte) : Dev :=
  let d := d.handBack (poolBlock n)
  let ref := d.nextRef cResendExhausted 0
  let d := { d with win := { d.win with
    awaiting := d.win.awaiting.filter fun x => x.1 ≠ seq
    exhausted := (seq, ref) :: d.win.exhausted.filter fun x => x.1 ≠ seq } }
  d.raise { code := cResendExhausted, sev := some .pause, lvl := .device,
            detail := winDetail 0 0 0 n seq.toNat 0 3 flags.toNat }

/-- What a block's content fails: its length or its check word (R115). -/
def Dev.blockFault (d : Dev) (n : Nat) : Option W16 :=
  let len := le (d.rams (poolBlock n + 8) 2) 0 2
  if len = 0 || 4080 < len then some cBlockLength
  else if le (d.rams (poolBlock n + 12) 4) 0 4 = (crc32c (d.rams (poolBlock n + 1) 11 ++ d.rams (poolBlock n + 16) len)).toNat then none
  else some cBlockCrc

/-- block_seq and block_flags of a pool block. -/
def Dev.blockSeq (d : Dev) (n : Nat) : W32 := BitVec.ofNat 32 (le (d.rams (poolBlock n + 4) 4) 0 4)

/-- The result of a block's check acts: the block counts, or goes back for another attempt (R114 to R116). -/
def Dev.blockResult (d : Dev) (n : Nat) (bad : Option W16) : Dev :=
  let seq := d.blockSeq n
  let again := d.win.awaiting.find? fun x => x.1 == seq
  let attempt := (again.map (·.2)).getD 0
  let d := if again.isNone then { d with win.seqNext := some (seq + 1) } else d
  match bad with
  | none =>
    let blk : Blk := ⟨seq, n, le (d.rams (poolBlock n + 8) 2) 0 2⟩
    let d := { d with win := { d.win with passed := d.win.passed ++ [blk], awaiting := d.win.awaiting.filter fun x => x.1 ≠ seq } }
    (d.noteChange (0x8000 + n) 1).estimate
  | some c =>
    let d := d.noteChange (0x8000 + n) 2
    if attempt = 3 then d.exhausted n seq (d.ram (poolBlock n + 1)) else d.askAgain n seq (attempt + 1) c (d.ram (poolBlock n + 1))

/-- The check of pool block n: its order first, then its content (R113). A formed secondary only notes its own result;
the primary's, on the link, is the one that acts (R118). -/
def Dev.checkBlock (d : Dev) (n : Nat) : Dev :=
  let seq := d.blockSeq n
  let first := !(d.win.awaiting.any fun x => x.1 == seq)
  let early := match d.win.seqNext with | some e => first && seq != e | none => false
  if early then
    let flags := d.ram (poolBlock n + 1)
    (d.handBack (poolBlock n)).note cBlockSeq (winDetail 0 0 0 n seq.toNat ((d.win.seqNext.getD 0)).toNat 0 flags.toNat)
  else if d.pairSecondary then { d with link := { d.link with checks := d.link.checks ++ [(n, (d.blockFault n).isNone)] } }
  else d.blockResult n (d.blockFault n)

/-- The check of the block handed over first (R114). -/
def blockCheck (d : Dev) : Dev :=
  if !d.operating then d else
  match d.win.handed with
  | [] => d
  | n :: rest => if d.owns (poolBlock n) then { d with win := { d.win with handed := rest } }.checkBlock n else { d with win := { d.win with handed := rest } }

/-- BLOCK_CHECK. -/
def execBlockCheck (s : State) : Host.Outcome State Fault Refusal := .next { s with dev := (blockCheck s.dev).finish }

/-! ## Status records and gauges (R96, R98, R141) -/

/-- The status writer. -/
def statusWrite (d : Dev) : Dev := if d.operating && d.sys.ready then d.writeStatus else d

/-- STATUS_WRITE. -/
def execStatusWrite (s : State) : Host.Outcome State Fault Refusal := .next { s with dev := (statusWrite s.dev).finish }

/-- The body of a gauge frame, +0x004 to +0x3FB (R98). -/
def Dev.gaugeBody (d : Dev) : List Byte :=
  let temp (p : Fin 4) : List Byte := if d.portOn p then sBytes 2 (d.tempOf p (d.heads.get p).rawTh) else [0, 0]
  let vh (p : Fin 4) : List Byte := if d.portOn p then leBytes 2 (vhOf (d.heads.get p).rawVh.toNat) else [0, 0]
  zeros 4 ++ leBytes 6 d.clk.now.toNat ++ [0, 0] ++ leBytes 6 d.clk.tickNo.toNat ++ [0, 0] ++
  leBytes 4 (if (d.line.band.map fun b => b.phase != .waiting).getD false then d.line.nextPeriod else if d.mover.isSome then d.mot.per else 0) ++
  sBytes 4 d.mediaPos ++ sBytes 4 d.axes.a.pos ++ sBytes 4 d.axes.b.pos ++ sBytes 4 d.axes.c.pos ++ sBytes 4 d.auxPos ++
  ((fin4.map temp).flatten) ++ ((fin4.map vh).flatten) ++
  ((d.line.lastMs.toList.map fun c => leBytes 2 c.toNat).flatten) ++
  leBytes 2 d.poolFree ++ [BitVec.ofNat 8 d.slicesIn, 0] ++ leBytes 4 ((d.rings.jobNext.getD 0)).toNat ++
  leBytes 4 d.rings.statusSeq.toNat ++ leBytes 2 d.rings.openFaults.length ++ [0, 0] ++ zeros 924

/-- The gauge writer: a tick at least 50 µs after the frame before, or 1 ms without one (R96). -/
def gaugeWrite (d : Dev) : Dev :=
  let ticked := d.clk.tickNo != 0 && atOrAfter d.clk.tickTs (d.win.gaugeTs + 1250)
  if !d.operating || !d.sys.ready || !(d.win.gaugeSeq = 0 || ticked || d.past d.win.gaugeTs (1 * ms)) then d else
  let seq := d.win.gaugeSeq + 1
  let base := if d.win.gaugeSel then 0x600 else 0x200
  let d := { d with win := { d.win with gaugeSeq := seq, gaugeTs := d.clk.now, gaugeSel := !d.win.gaugeSel } }
  ((d.poke base (leBytes 4 seq.toNat)).poke (base + 4) d.gaugeBody).poke (base + 0x3FC) (leBytes 4 seq.toNat)

/-- GAUGE_FRAME_WRITE. -/
def execGaugeFrameWrite (s : State) : Host.Outcome State Fault Refusal := .next { s with dev := (gaugeWrite s.dev).finish }

end Sys2Proof.Machine
end

