-- ==== Sys2Proof/Machine/Jobs.lean ====
section
/-! DEFINITION. The job ring: posting a record, and the admission of each record type (R18, R121 to R139). -/

namespace Sys2Proof.Machine

/-! ## Posting (R121 to R125) -/

/-- Detail of RECORD_CRC and RECORD_SEQ (R631). -/
def slotDetail (expected : Nat) (r : List Byte) (slot : Nat) : List Byte :=
  leBytes 4 expected ++ leBytes 4 (rSeq r).toNat ++ leBytes 2 slot ++ leBytes 4 (rTag r).toNat ++ [BitVec.ofNat 8 (rType r)]

/-- The device looks at the slot at its pointer: a device-owned record whose crc and sequence verify is posted. A slot whose
posted record is not admitted yet, reached again after 1,024, is left alone: the spec does not say (DESIGN CHOICE, log
entry 128). -/
def Dev.examine (d : Dev) : Dev :=
  let n := d.rings.jobPtr
  let r := d.rams (jobSlot n) 64
  if !d.owns (jobSlot n) || d.rings.posted.any (fun x => x.2 == n) then d
  else if !jobCrcOk r then (d.handBack (jobSlot n)).note cRecordCrc (slotDetail 0 r n)
  else match d.rings.jobNext with
    | some e =>
      if rSeq r ≠ e then (d.handBack (jobSlot n)).note cRecordSeq (slotDetail e.toNat r n)
      else { d with rings := { d.rings with posted := d.rings.posted ++ [(r, n)], jobPtr := (n + 1) % 1024, jobNext := some (rSeq r + 1) } }
    | none => { d with rings := { d.rings with posted := d.rings.posted ++ [(r, n)], jobPtr := (n + 1) % 1024, jobNext := some (rSeq r + 1) } }

/-! ## Admission (R126 to R139) -/

/-- Whether the device admits a record now: the queues have room, no BARRIER holds, no sleep request holds (R126, R137,
R143, R524). -/
def Dev.mayAdmit (d : Dev) : Bool :=
  d.awake && d.sys.ready && !d.sys.sleepPin && d.rings.admitted.length < 256 && d.rings.queue.length < 96 &&
    !(d.rings.admitted.any fun a => rType a.raw == 0x70)

/-- The head of the posted records leaves its slot for the admission queue (R126). -/
def Dev.takeHead (d : Dev) (raw : List Byte) (slot : Nat) (rest : List (List Byte × Nat)) : Dev :=
  let d := { d with rings := { d.rings with posted := rest, lastAdm := rSeq raw } }.handBack (jobSlot slot)
  { d with rings := { d.rings with admitted := d.rings.admitted ++ [{ raw := raw, admitTs := d.clk.now }] } }

/-- An admitted record is refused; the blocks that a BAND names go back (R117). -/
def Dev.turnAway (d : Dev) (raw : List Byte) (code : W16) (ref : W32) (detail : Nat) : Dev :=
  (if rType raw = 0x10 then d.dropBand raw (bFirst raw, 0) else d).close (rSeq raw) { res := .refused, code := code, ref := ref, detail := detail }

/-- A STOP_DEVICE in force refuses what has not begun (R536). -/
def Dev.stoppedBy (d : Dev) : Option React := d.flt.active.find? fun r => r.started && r.sev == .stopDevice

/-- The dead-dot tables of every port are merged at a BAND's admission; the BAND keeps its copies (R186). -/
def Dev.mergePorts (d : Dev) (raw : List Byte) : Dev :=
  (fin4.filter d.portOn).foldl (init := d) fun d p =>
    let (t, d) := d.remerge (rJob raw) p
    d.onAdm (rSeq raw) fun a => { a with dead := a.dead.set p t }

/-- A record that has passed its checks: a BAND takes its segment maps, its media section and its dead-dot tables, a SOLENOID its place
among the waiting pulses. -/
def Dev.enrol (d : Dev) (raw : List Byte) (trimmed : Bool) : Dev :=
  let seq := rSeq raw
  let d := d.onAdm seq fun a => { a with trimmed := trimmed, zero := rZero raw }
  let maps := d.mapsFor
  let d := if rType raw = 0x10 then (d.onAdm seq fun a => { a with maps := maps }).mergePorts raw else d
  if rZero raw then d else
  match rType raw with
  | 0x10 =>
    if bMedia raw < 4 then ((d.useMedia (bMedia raw)).onAdm seq fun a => { a with media := bMedia raw }).estimate
    else d.onAdm seq fun a => { a with media := 99, loadWait := true }
  | 0x40 =>
    match d.adm seq with
    | some a => { d with solx := { d.solx with runs := d.solx.runs ++ [d.runOf a] } }
    | none => d
  | _ => d

/-- Admit the head of the posted records (R128, R136 to R138). -/
def Dev.admitHead (d : Dev) (raw : List Byte) (slot : Nat) (rest : List (List Byte × Nat)) : Dev :=
  let d := d.takeHead raw slot rest
  if d.rings.flushing then
    let d := d.turnAway raw cFlushed 0 0
    if rType raw = 0x70 then { d with rings := { d.rings with flushing := false, failedSince := false } } else d
  else if !knownType (rType raw) then d.turnAway raw cBadType 0 0
  else if rType raw = 0x00 then (d.begin_ (rSeq raw)).close (rSeq raw) { result := (raw.drop 0x0C).take 16 }
  else if rType raw = 0x70 then d
  else match d.check raw with
    | .no c detail => d.turnAway raw c 0 detail
    | .go trimmed =>
      -- a ZERO record has nothing to be stopped (R130)
      match if rZero raw then none else d.stoppedBy with
      | some r => d.turnAway raw r.code r.seq 0
      | none => d.enrol raw trimmed

/-- Admit the head when it passes a test. -/
def Dev.admitIf (d : Dev) (p : Nat → Bool) : Dev :=
  match d.rings.posted with
  | [] => d
  | (raw, slot) :: rest => if d.mayAdmit && p (rType raw) then d.admitHead raw slot rest else d

/-- Admit posted records in order, n at most. -/
def Dev.admitAll (d : Dev) (p : Nat → Bool) : Nat → Dev
  | 0 => d
  | n + 1 =>
    match d.rings.posted with
    | [] => d
    | (raw, slot) :: rest => if d.mayAdmit && p (rType raw) then (d.admitHead raw slot rest).admitAll p n else d

/-- JOB_SLOT_EXAMINE. Records of a type that the table lacks have no command of their own; they are refused here. -/
def jobSlotExamine (d : Dev) : Dev := if d.operating && d.sys.ready then d.examine.admitAll (fun t => !knownType t) 1024 else d

/-- JOB_SLOT_EXAMINE. -/
def execJobSlotExamine (s : State) : Host.Outcome State Fault Refusal := .next { s with dev := (jobSlotExamine s.dev).finish }

/-- Admission of a posted record of one type. -/
def admitType (t : Nat) (d : Dev) : Dev := (d.admitIf (· == t)).admitAll (fun t => !knownType t) 1024

/-- NOTE: admission completes it (R136). -/
def execNote (s : State) : Host.Outcome State Fault Refusal := .next { s with dev := (admitType 0x00 s.dev).finish }
/-- BAND: admission with its checks, maps and tables (R131, R180, R186). -/
def execBand (s : State) : Host.Outcome State Fault Refusal := .next { s with dev := (admitType 0x10 s.dev).finish }
/-- FEED: admission; it begins in its turn (R18, R348). -/
def execFeed (s : State) : Host.Outcome State Fault Refusal := .next { s with dev := (admitType 0x20 s.dev).finish }
/-- BACKFEED. -/
def execBackfeed (s : State) : Host.Outcome State Fault Refusal := .next { s with dev := (admitType 0x21 s.dev).finish }
/-- SEEK_MARK (R380). -/
def execSeekMark (s : State) : Host.Outcome State Fault Refusal := .next { s with dev := (admitType 0x22 s.dev).finish }
/-- CUT (R402). -/
def execCut (s : State) : Host.Outcome State Fault Refusal := .next { s with dev := (admitType 0x30 s.dev).finish }
/-- SOLENOID (R415 to R428). -/
def execSolenoid (s : State) : Host.Outcome State Fault Refusal := .next { s with dev := (admitType 0x40 s.dev).finish }
/-- ADOPT_PROFILE (R133 to R135). -/
def execAdoptProfile (s : State) : Host.Outcome State Fault Refusal := .next { s with dev := (admitType 0x50 s.dev).finish }
/-- LEARN_MEDIA (R391). -/
def execLearnMedia (s : State) : Host.Outcome State Fault Refusal := .next { s with dev := (admitType 0x60 s.dev).finish }
/-- TASTE_HEAD (R288). -/
def execTasteHead (s : State) : Host.Outcome State Fault Refusal := .next { s with dev := (admitType 0x61 s.dev).finish }
/-- BARRIER: no record of higher sequence is admitted until it completes (R137). -/
def execBarrier (s : State) : Host.Outcome State Fault Refusal := .next { s with dev := (admitType 0x70 s.dev).finish }

end Sys2Proof.Machine
end

