-- ==== Sys2Proof/Machine/Senses.lean ====
section
/-! DEFINITION. The media sensors: classification, edges, runs, and what they bring: found marks, paper-out, near-end, the
cutter's home; learning and fouling compensation (R373 to R400, R402). -/

namespace Sys2Proof.Machine

/-! ## Classification (R377, R378) -/

/-- A classifier's state and its last sample. -/
structure Track where
  space : Bool
  run : Nat
  lastPos : Int
  lastR : Nat
  cross : Int
deriving DecidableEq, Repr

/-- The crossing of th between two samples (R378). -/
def crossing (th p0 : Int) (r0 : Nat) (p1 : Int) (r1 : Nat) : Int :=
  let dr : Int := ((r1 : Int) - r0).natAbs
  p0 + Int.tdiv (2 * (p1 - p0) * ((th - r0).natAbs : Int) + dr) (2 * max dr 1)

/-- One sample classified: s is the sign of the span, n the debounce. The answer says whether the state has changed; then
cross holds where. -/
def Track.next (t : Track) (s th h : Int) (n : Nat) (p : Int) (r : Nat) : Track × Bool :=
  let dir := if t.space then -s else s
  let cross := if dir * ((t.lastR : Int) - th) < 0 && 0 ≤ dir * ((r : Int) - th) then crossing th t.lastPos t.lastR p r else t.cross
  let run := if h ≤ dir * ((r : Int) - th) then t.run + 1 else 0
  if run = n then ({ space := !t.space, run := 0, lastPos := p, lastR := r, cross := cross }, true)
  else ({ t with run := run, lastPos := p, lastR := r, cross := cross }, false)

/-- Sign of the span, threshold and hysteresis of channel c of a media section (R377). -/
def spanOf (m : List Byte) (c : Nat) : Int × Int × Int :=
  let span : Int := (mLevS m c : Int) - (mLevM m c : Int)
  (if 0 < span then 1 else -1, ((mLevM m c + mLevS m c) / 2 : Nat), (span.natAbs * mHyst m c / 256 : Nat))

/-- Detail of a record about a channel. -/
def Dev.chanDetail (d : Dev) (c : Fin 8) (r : Nat) (value : Int) : List Byte :=
  d.senseDetail c.val (mEmit d.curMedia c.val) r d.nextLineTick value

/-! ## What a change of state brings -/

/-- A qualified run is found: the SEEK_MARK under way on this channel, or the aligned advance of a CUT, takes its target
from it (R380, R402). -/
def Dev.runFound (d : Dev) (c : Fin 8) (lead trail : Int) : Dev :=
  match d.media.move, d.media.cut with
  | some m, _ =>
    match d.adm m.seq with
    | none => d
    | some a =>
      if rType a.raw ≠ 0x22 || kSensor a.raw ≠ c.val || m.found.isSome || lead ≤ m.startPos then d else
      let edge := if kEdge a.raw % 2 = 0 then lead else trail
      let goal := edge + kStop a.raw
      let d := { d with media.move := some { m with found := some edge, goal := goal } }
      if d.mot.travel == .planned && !m.paused then d.retarget goal else d
  | none, some k =>
    let m := d.curMedia
    if k.step ≠ .advance || cutField m 4 1 ≠ c.val + 1 || k.code = 0 || lead ≤ k.startPos then d else
    let goal := (if cutField m 5 1 = 0 then lead else trail) + signed 32 (cutField m 8 4)
    let d := { d with media.cut := some { k with code := 0, goal := some goal } }
    if d.mot.travel == .planned then d.retarget goal else d
  | none, none => d

/-- PAPER_OUT, for every channel that enters SPACE: a further one under the reaction in force is recorded too (R382, R549). -/
def Dev.paperOut (d : Dev) (c : Fin 8) (r : Nat) : Dev :=
  { d with media.paperOut := true }.raise
    { code := cPaperOut, sev := some .pause, lvl := .device, job := d.bandJob, detail := d.chanDetail c r 0 }

/-- NEAR_END (R383). -/
def Dev.nearEnd (d : Dev) (c : Fin 8) (r : Nat) : Dev :=
  let s := d.sense.get c
  if !s.nearArmed then d else
  { d with sense := d.sense.set c { s with nearArmed := false } }.raise
    { code := cNearEnd, sub := c.val, sev := some .note, detail := d.chanDetail c r 0 }

/-- A channel has entered SPACE: what its role makes of it. -/
def Dev.entersSpace (d : Dev) (c : Fin 8) (r : Nat) : Dev :=
  match mRole d.curMedia c.val with
  | 4 => d.paperOut c r
  | 5 => d.nearEnd c r
  | _ => d

/-- A channel's change of state: edges and runs (R378, R379). -/
def Dev.changed (d : Dev) (c : Fin 8) (r : Nat) (t : Track) : Dev :=
  let s := d.sense.get c
  let m := d.curMedia
  if t.space then
    { d with sense := d.sense.set c { s with leadEdge := some t.cross, mediaTs := none } }.entersSpace c r
  else
    let d := { d with sense := d.sense.set c { s with leadEdge := none, mediaTs := some d.clk.now } }
    match s.leadEdge with
    | none => d
    | some lead =>
      let len := t.cross - lead
      if [1, 2, 3].contains (mRole m c.val) && (mGapMin m : Int) ≤ len && len ≤ (mGapMax m : Int) then d.runFound c lead t.cross else d

/-- A near-end channel that has read MEDIA for 1 s may report again (R383). -/
def Dev.rearm (d : Dev) (c : Fin 8) : Dev :=
  let s := d.sense.get c
  match s.mediaTs with
  | some t => if !s.nearArmed && d.past t (1000 * ms) then { d with sense := d.sense.set c { s with nearArmed := true } } else d
  | none => d

/-! ## Learning (R392 to R395) -/

/-- The LEARN_MEDIA that moves the media. -/
def Dev.learning (d : Dev) : Option (Move × Adm) :=
  match d.media.move with
  | none => none
  | some m => (d.adm m.seq).bind fun a => if rType a.raw = 0x60 then some (m, a) else none

/-- One sample of a channel in the cluster pass, with the measure of R395: threshold c, no hysteresis, the channel's own
debounce. -/
def Learn.cluster (l : Learn) (m : List Byte) (c : Nat) (p : Int) (r : Nat) : Learn :=
  let l := if l.cut ≤ r then { l with hiN := l.hiN + 1, hiSum := l.hiSum + r } else { l with loN := l.loN + 1, loSum := l.loSum + r }
  let (s, _, _) := spanOf m c
  match l.space with
  | none => { l with space := some (decide (0 ≤ s * ((r : Int) - l.cut))), lastPos := p, lastR := r, cross := p }
  | some sp =>
    let (t, ch) := Track.next ⟨sp, l.run, l.lastPos, l.lastR, l.cross⟩ s l.cut 0 (mDeb m c) p r
    let l := { l with space := some t.space, run := t.run, lastPos := p, lastR := r, cross := t.cross }
    if !ch then l
    else if t.space then { l with lead := some t.cross }
    else match l.lead with
      | none => l
      | some x =>
        let len := t.cross - x
        let l := { l with lead := none }
        if (mGapMin m : Int) ≤ len && len ≤ (mGapMax m : Int) then
          { l with runs := l.runs + 1, runSum := l.runSum + len, prevLead := some x,
                   leads := l.leads + b2n l.prevLead.isSome, leadSum := l.leadSum + (match l.prevLead with | some y => x - y | none => 0) }
        else l

/-- One sample of a channel under a LEARN_MEDIA. -/
def Dev.learnSample (d : Dev) (c : Fin 8) (p : Int) (r : Nat) : Dev :=
  match d.learning with
  | none => d
  | some (m, a) =>
    if !bit (lMask a.raw) c.val || d.mot.travel == .rest || !d.mot.fwd then d else
    let l := d.media.learn.get c
    let l := if m.ranged then l.cluster d.curMedia c.val p r else { l with lo := min l.lo r, hi := max l.hi r }
    { d with media.learn := d.media.learn.set c l }

/-- LEARN_RANGE_END: after the first quarter of the distance emitters are set for the cluster pass (R392 steps 1 to 3). With every
reading 0 the quotient is a free value within its bounds (DESIGN CHOICE, log entry 136). -/
def learnRangeEnd (d : Dev) : Dev :=
  match d.learning with
  | none => d
  | some (m, a) =>
    if !d.operating || m.ranged || 4 * (d.samplePos (tens d.clk.now) - m.startPos) < rDist a.raw then d else
    let d := { d with media.move := some { m with ranged := true } }
    fin8.foldl (init := d) fun (d : Dev) (c : Fin 8) =>
      if !bit (lMask a.raw) c.val then d else
      let l := d.media.learn.get c
      let e := l.eOld
      let (q, d) := if e ≠ 0 && l.hi = 0 then d.drawFree else (roundDiv (e * 3000) (max l.hi 1), d)
      let n := if e ≠ 0 && (l.hi < 2400 || 3600 < l.hi) then min 160 (max 1 q) else e
      let scale (v : Nat) : Nat := if e = 0 then v else v * n / e
      let l := { l with eNew := n, cut := (scale l.lo + scale l.hi) / 2 }
      let d := { d with media.learn := d.media.learn.set c l }
      if n = e then d else { d with sense := d.sense.set c { d.sense.get c with settleTs := some d.clk.now } }

/-! ## A sensor round (R375, R376) -/

/-- One sample of a channel, taken at a position: it is classified unless its emitter has just changed (R374, R377), and a COMP_ON
channel counts it when it is MEDIA (R398). -/
def Dev.senseSample (d : Dev) (c : Fin 8) (p : Int) (r : Nat) : Dev :=
  let m := d.curMedia
  let s := d.sense.get c
  let settling := match s.settleTs with | none => false | some t => !d.past t (100 * us)
  if mRole m c.val = 0 || settling then d else
  let d := d.learnSample c p r
  let (sg, th, h) := spanOf m c.val
  let d := match s.space with
    | none =>
      -- the first state: SPACE for a sample that argues for it, MEDIA for any other
      let sp := decide (h ≤ sg * ((r : Int) - th))
      let d := { d with sense := d.sense.set c { s with
        space := some sp, run := 0, lastPos := p, lastR := r, cross := p, leadEdge := none, fresh := false
        mediaTs := if sp then none else some d.clk.now } }
      if sp && s.fresh && mRole m c.val = 4 then d.paperOut c r else d
    | some sp =>
      let (t, ch) := Track.next ⟨sp, s.run, s.lastPos, s.lastR, s.cross⟩ sg th h (mDeb m c.val) p r
      let d := { d with sense := d.sense.set c { s with space := some t.space, run := t.run, lastPos := p, lastR := r, cross := t.cross } }
      if ch then d.changed c r t else d
  let s := d.sense.get c
  let d := if mComp m c.val && s.space == some false && d.mot.travel != .rest then
      { d with sense := d.sense.set c { s with accSum := s.accSum + r, accN := s.accN + 1 } } else d
  d.rearm c

/-! ## What a record leaves in its media section (R392 to R400) -/

/-- Write bytes of media section n and renew its check word (R396, R398). -/
def Dev.writeMedia (d : Dev) (n off : Nat) (bs : List Byte) : Dev := d.poke (secAddr (16 + n) + off) bs

/-- The section's revision rises by 1 and its check word is rewritten. -/
def Dev.bumpMedia (d : Dev) (n : Nat) : Dev := (d.poke (secAddr (16 + n) + 8) (leBytes 4 (d.secRev (16 + n) + 1))).sealSec (16 + n)

/-- Set or clear bits of fouled_mask. -/
def Dev.foulBits (d : Dev) (n mask : Nat) (on : Bool) : Dev :=
  let v := le (d.mediaSec n) 0x2C 4
  let v := if on then v ||| mask else v - (v &&& mask)
  (d.writeMedia n 0x2C (leBytes 4 v)).sealSec (16 + n)

/-- A channel whose entry the device has written takes its state anew (R377), after 100 µs where its emitter's current changes
(R374). -/
def Dev.retakes (d : Dev) (c : Fin 8) (emitter : Bool) : Dev :=
  { d with sense := d.sense.set c { d.sense.get c with
      entry := mChan d.curMedia c.val, space := none, run := 0, leadEdge := none, mediaTs := none, accSum := 0, accN := 0
      settleTs := if emitter then some d.clk.now else (d.sense.get c).settleTs } }

/-- An emitter's new value in the ledger (R554), and SENSOR_FOULED at 144 and above, once (R399). -/
def Dev.emitterSet (d : Dev) (n : Nat) (c : Fin 8) (e : Nat) : Dev :=
  let a := 0x140 + 16 * c.val
  let d := (d.ledSet (a + 1) 1 e).ledSet (a + 2) 1 (max e (d.led (a + 2) 1))
  if e < 144 || bit (le (d.mediaSec n) 0x2C 4) c.val then d
  else (d.foulBits n (2 ^ c.val) true).raise
    { code := cSensorFouled, sub := c.val, sev := some .note, detail := d.senseDetail c.val e (d.sense.get c).lastR d.nextLineTick 0 }

/-- What a channel has learned: its levels and emitter, none when it failed (R392 to R394). -/
def learned (m : List Byte) (c : Nat) (l : Learn) : Option (Nat × Nat × Nat) :=
  let total := l.hiN + l.loN
  if total = 0 then none else
  let mh := l.hiSum / max l.hiN 1
  let ml := l.loSum / max l.loN 1
  let weak := l.hiN = 0 || l.loN = 0 || mh - ml < 400
  if [4, 5].contains (mRole m c) && weak then some (l.eNew, (l.hiSum + l.loSum) / total, mLevS m c)
  else if weak || (!([4, 5].contains (mRole m c)) && 50 * min l.hiN l.loN < total) then none
  else if l.loN < l.hiN then some (l.eNew, mh, ml) else some (l.eNew, ml, mh)

/-- The end of a LEARN_MEDIA: new levels, emitters, pitch and gap go into the section (R392 to R397). The answer says
whether some channel failed. -/
def Dev.endLearn (d : Dev) (a : Adm) : Dev × Bool :=
  let n := lSec a.raw
  let m := d.mediaSec n
  let sel := fin8.filter fun c => bit (lMask a.raw) c.val && (mRole m c.val) ≠ 0
  let res := sel.map fun c => (c, learned m c.val (d.media.learn.get c))
  let good := res.filterMap fun x => x.2.map fun v => (x.1, v)
  let failed := good.length < res.length
  -- a failed channel's emitter goes back to its own
  let d := res.foldl (init := d) fun (d : Dev) x =>
    if x.2.isNone && (d.media.learn.get x.1).eNew ≠ (d.media.learn.get x.1).eOld then d.retakes x.1 true else d
  if good.isEmpty then (d, failed) else
  let d := good.foldl (init := d) fun (d : Dev) (x : Fin 8 × Nat × Nat × Nat) =>
    let (c, e, lm, ls) := x
    let ad := 0x140 + 16 * c.val
    let d := d.writeMedia n (chOff c.val + 1) (BitVec.ofNat 8 e :: leBytes 2 lm ++ leBytes 2 ls)
    let d := d.foulBits n (2 ^ c.val + 2 ^ (8 + c.val)) false
    -- its emitter sinks the learned current since the cluster pass
    let d := (d.retakes c false).endCond cSensorBlind c.val
    let d := if d.led (ad + 4) 2 = 0 then d.ledSet ad 1 e else d
    (d.ledAdd (ad + 4) 2 1).ledSet (ad + 8) 4 (d.led 4 4)
  let d := match good.find? fun x => [1, 2, 3].contains (mRole m x.1.val) with
    | none => d
    | some x =>
      let l := d.media.learn.get x.1
      let pitch := if l.runs < 2 then 0 else (l.leadSum / (l.leads : Int)).toNat
      let gap := if l.runs < 2 then 0 else (l.runSum / (l.runs : Int)).toNat
      (d.writeMedia n 0x24 (leBytes 4 pitch)).writeMedia n 0x28 (leBytes 2 gap)
  let d := d.bumpMedia n
  let d := good.foldl (fun d x => d.emitterSet n x.1 x.2.1) d
  let d := match d.win.loaded.get (fin4Of n) with
    | some slot => d.joinSet (32 + slot) (d.imageOfSec (16 + n) slot)
    | none => d
  (d, failed)

/-- At rest after a record that moved the media, one COMP_ON channel (R398 to R400). -/
def Dev.compensate (d : Dev) (c : Fin 8) : Dev :=
  let n := d.mot.curMedia
  let m := d.curMedia
  let s := d.sense.get c
  if !mComp m c.val || mRole m c.val = 0 || s.accN < 256 || !d.secOn (16 + n) then d else
  let mean := s.accSum / s.accN
  let lm := mLevM m c.val
  let e := mEmit m c.val
  let diff := ((mean : Int) - lm).natAbs
  let d :=
    if e = 160 && lm ≤ 4 * diff && !mBlind m c.val then
      (d.foulBits n (2 ^ (8 + c.val)) true).raise
        { code := cSensorBlind, sub := c.val, sev := some .derate, lvl := .device, detail := d.chanDetail c mean 0 }
    else d
  if 16 * diff < lm then d else
  -- with a mean of 0 the quotient is a free value within its bounds (DESIGN CHOICE, log entry 136)
  let (q, d) := if mean = 0 then d.drawFree else (roundDiv (e * lm) mean, d)
  let e' := min 160 (max 1 q)
  let d := (d.writeMedia n (chOff c.val + 1) [BitVec.ofNat 8 e']).bumpMedia n
  let d := (d.ledAdd (0x140 + 16 * c.val + 6) 2 1).emitterSet n c e'
  if e' = e then d else d.retakes c true

/-- At rest after a record: every channel. -/
def Dev.compensateAll (d : Dev) : Dev := fin8.foldl (fun d c => d.compensate c) d

/-! ## A round as a whole -/

/-- A CUT that has just ended moved the media: at rest after it, every channel (R398). -/
def Dev.afterCut (d : Dev) (before : Dev) : Dev :=
  if before.media.cut.isSome && d.media.cut.isNone && d.mot.travel == .rest then d.compensateAll else d

/-- The cutter has come home, or its homing has ended (R402 steps 2 and 5). -/
def Dev.homeCheck (d : Dev) : Dev :=
  match d.media.cut, d.homeChan with
  | some c, some h =>
    if !d.readsMedia h then d
    else match c.step with
      | .homing => d.homingDone c
      | .back => (d.cutHome c).afterCut d
      | _ => d
  | _, _ => d

/-- The samples of one sequence of conversions, in channel order, each with the position of its own time (R375). -/
def Dev.senseRound (d : Dev) (at_ : Fin 8 → BitVec 50) (set : Oct Adc) : Dev :=
  (fin8.foldl (fun d c => d.senseSample c (d.samplePos (at_ c)) (set.get c).toNat) d).homeCheck

/-- How many of the channels below n have a role. -/
def Dev.rolesBelow (d : Dev) (n : Nat) : Nat := (fin8.filter fun (c : Fin 8) => decide (c.val < n) && mRole d.curMedia c.val ≠ 0).length

/-- Time of a conversion in 10 ns: 250 ns, twice that while ADC runs from its fallback source (R375, R510). -/
def Dev.convTime (d : Dev) : Nat := if d.clk.adc.src == .fallback then 50 else 25

/-- Time in 10 ns at which a round converts a channel: the channels with a role follow one another (R375). -/
def Dev.roundAt (d : Dev) (ts : Ts) (c : Fin 8) : BitVec 50 := tens ts + BitVec.ofNat 50 (d.convTime * d.rolesBelow c.val)

/-- Time in 10 ns at which a tick or start sample sequence converts a channel: MS0 to MS7 follow TH and VH (R14). -/
def setTime (ts : Ts) (c : Fin 8) : BitVec 50 := tens ts + BitVec.ofNat 50 (200 + 25 * c.val)

/-- Length of a round in units, rounded up. -/
def Dev.roundLen (d : Dev) : Nat := (d.convTime * d.rolesBelow 8 + 3) / 4

/-- Whether the sample sequence from ts on stands for a round: one that would overlap it. A round already under way is given up
for a sequence that was planned, not for a tick of the encoder (R376, log entry 138). -/
def Dev.displaces (d : Dev) (ts : Ts) (planned : Bool) : Bool :=
  let r := (ts.toNat + 99) % 250
  decide (r ≤ 99 || (planned && r < 99 + d.roundLen))

/-- Whether a round now would overlap a sample sequence: one under way, or the one of a planned tick or start (R376). -/
def Dev.roundOverlaps (d : Dev) : Bool :=
  let soon (t : Ts) : Bool := let n := signed 48 (t - d.clk.now).toNat; decide (n < (d.roundLen : Int) && -100 < n)
  let ticks := (d.line.band.map fun b => b.phase == .firing && (b.fromRest || d.tickSource ≠ 1)).getD false
  d.line.sampled || (ticks && soon d.line.planned) || (d.line.startTs.map fun t => decide (signed 48 (t - d.clk.now).toNat < (d.roundLen : Int))).getD false

end Sys2Proof.Machine
end

