-- ==== Sys2Proof/Machine/LineTick.lean ====
section
/-! DEFINITION. The line tick, the tick sample set, the press's completion and its slices (R13 to R24, R203, R238 to
R247, R295 to R300, R314 to R318, R572, R573, R592). -/

namespace Sys2Proof.Machine

/-! ## The pair: dissolution and faults of one's own circuits (R591, R593, R594) -/

/-- A STOP_DEVICE of one half's own circuits: in a formed primary it makes a takeover and a safety reset, in a formed
secondary the pair dissolves (R591). -/
def Dev.raiseOwn (d : Dev) (r : Rise) : Dev :=
  if d.pairPrimary then d.halt r .device 0 0 false (r.code == cClkForced)
  else if d.pairSecondary then
    (d.sendEvent r.code Sev.stopDevice.code (d.scopeByte .device 0) 0 (lineTickOf r.code r.detail) 0 r.detail).dissolve 7 r.code.toNat noTick 0
  else d.raise r

/-! ## Press slices (R240 to R246) -/

/-- A slice is fenced; with the last one gone the press has failed (R245, R246). -/
def Dev.fence (d : Dev) (k : Fin 4) (cause : Nat) (tick : Nat) : Dev :=
  let d := { d with line.slices := d.line.slices.set k { d.line.slices.get k with fenced := true } }.ledSet (sliceAddr k + 6) 1 2
  let detail := pressDetail (k.val + (if d.pairSecondary then 4 else 0)) cause tick d.slicesIn 0 0 0
  let d := if d.pairSecondary then
      d.sendEvent cSliceFenced Sev.derate.code (d.scopeByte .device 0) 0 tick 0 detail else d
  let d := d.raise { code := cSliceFenced, sev := some .derate, lvl := .device, job := d.bandJob, detail := detail }
  if d.slicesIn = 0 then
    d.raiseOwn { code := cPressFailed, sev := some .stopDevice, lvl := .device, job := d.bandJob, detail := pressDetail 0xFF 0 tick 0 0 0 0 }
  else d

/-- Blocks of 64 dots that a band's ports have (R198, R241). -/
def Dev.bandBlocks (d : Dev) : Nat :=
  match d.line.band with
  | some b => (portsOf (rMask b.raw)).foldl (fun n p => n + ceilDiv (d.pers.ports.get p).dots 64) 0
  | none => 0

/-- The press has computed the pending line; the cross-check computes one block of it, the next in rotation through the
band's blocks, on two slices in service (R238, R241 to R244). Which two, and whether their results differ, the command
says. -/
def pressDone (cmp : CrossCheck) (d : Dev) : Dev :=
  if !d.operating then d else
  match d.line.pend with
  | none => d
  | some p =>
    if p.complete then d else
    let fit := { d with line := { d.line with pend := some { p with complete := true }, checkBlock := (d.line.checkBlock + 1) % max d.bandBlocks 1 } }
    let n := d.slicesIn
    match cmp with
    | .agree => fit
    | .differ x y w =>
      if n ≤ 1 || x == y || !d.sliceIn x || !d.sliceIn y then fit
      else if n = 2 then
        d.raiseOwn { code := cPressDisagree, sev := some .stopDevice, lvl := .device, job := d.bandJob,
                     detail := pressDetail (min x.val y.val) 2 d.nextLineTick n 0 0 0 }
      else (d.fence w 2 d.nextLineTick).losePend w

/-- A slice's parity check fails (R240). -/
def sliceParity (k : Fin 4) (d : Dev) : Dev :=
  if !d.operating || (d.line.slices.get k).fenced then d else (d.fence k 1 d.nextLineTick).losePend k

/-! ## TICK and PLAN frames (R570, R571) -/

/-- Body of a TICK frame of kind 0 or 1. -/
def setBody (tick : Ts) (s : SampleSet) (slices fine : Nat) : List Byte :=
  leBytes 6 tick.toNat ++ pack12 (s.th.toList.map (·.toNat) ++ s.vh.toList.map (·.toNat)) ++ pack12 (s.ms.toList.map (·.toNat)) ++
    [BitVec.ofNat 8 slices, BitVec.ofNat 8 fine]

/-- Whether a line of the band begins at the next tick. -/
def Dev.lineNext (d : Dev) : Bool := d.line.pend.isSome || d.line.following.isSome

/-- The TICK frame of a tick or a start set. -/
def Dev.sendSet (d : Dev) (kind : Nat) (ts : Ts) (s : SampleSet) : Dev :=
  if !d.ticksRing then d else
  let stops := (d.line.band.map fun b => b.restAfter.isSome).getD false
  let flags := b2n stops + 2 * b2n (d.line.nextRest && !stops) + 4 * b2n (!d.lineNext)
  d.sendTick kind flags ts (if kind = 0 then d.line.period else 0) ((d.clk.tickNo + 1).toNat % 65536)
    (setBody d.clk.tickNo s d.slicesIn d.link.edge.val)

/-! ## Sample sets (R14, R203, R298) -/

/-- The line that the next tick begins is computed: the band's own, or the first of the band that follows at once. -/
def Dev.pressAhead (d : Dev) : Dev :=
  match d.line.band with
  | none => d
  | some b =>
    if b.phase != .firing || b.fromRest || b.restsAt b.next || b.abandonAt.isSome || b.next = 0 || d.line.pend.isSome then d
    -- a member takes the line's times from the master's frame of this tick (R573)
    else if d.isMember && !d.pairSecondary && (d.link.tick.map fun t => t.tick == d.clk.tickNo) ≠ some true then d
    -- a member whose data have not come fires nothing (R578, R580)
    else if d.isMember && b.next < b.lines && !d.linePresent b.raw b.base b.next then d
    else if b.next < b.lines then d.pressNext d.line.planned
    else match d.chained b with
      | some n =>
        if d.leadLines n.raw ≠ 0 then d else
        let (d, n) := d.pressBand n d.line.planned
        { d with line.following := some n }
      | none => d

/-- The MS conversions of the sequence that began at ts: they are the samples of the round that it displaces (R376). -/
def Dev.senseSet (d : Dev) (s : SampleSet) (ts : Ts) (planned : Bool) : Dev :=
  let d := { d with line.lastMs := s.ms }
  if d.displaces ts planned then d.senseRound (setTime ts) s.ms else d

/-- What a tick sample set brings, the chip's own or one that came in a TICK frame. -/
def Dev.tickSet (d : Dev) (s : SampleSet) : Dev :=
  let d := { d with line.sampled := false }.senseSet s d.clk.tickTs (d.tickSource ≠ 1)
  ((d.takeSet s).stepInputs s).pressAhead

/-- SAMPLE_SET_COMPLETE: the set of the latest tick is frozen. A formed secondary takes its sets from the primary
(R588). -/
def sampleSet (s : SampleSet) (d : Dev) : Dev :=
  if !d.operating || !d.line.sampled || d.pairSecondary then d else ((d.tickSet s).sendSet 0 d.clk.tickTs s).sendPlan

/-- What a start or resume sample set brings; ts is when it began. -/
def Dev.startSet (d : Dev) (s : SampleSet) (ts : Ts) : Dev :=
  let d := d.senseSet s ts true
  let d := (d.setInputs (fin4.filter d.portOn) s noTick ts).takeSet s
  if (d.line.band.map fun b => b.phase == .starting).getD false then d.started ts else { d with line.startTs := none }

/-- START_SAMPLE_SET_DONE: the start or resume sample set has been taken (R203, R298). -/
def startSet (s : SampleSet) (d : Dev) : Dev :=
  if !d.operating || d.pairSecondary then d else
  match d.line.startTs with
  | none => d
  | some t => if atOrAfter d.clk.now t then (d.startSet s t).sendSet 1 t s else d

/-- BAND_RESUME: the band at rest starts again (R314, R315). -/
def bandResume (d : Dev) : Dev :=
  match d.line.band with
  | some b => if b.phase == .resting && d.bandMayStart b then d.startBand else d
  | none => d

/-! ## The tick (R19, R295 to R300, R316, R572, R573) -/

/-- Chips that raise their ticks from the pulse at LNK_TICK_IN: a formed secondary, a member of a WIDE or TANDEM
stack. -/
def Dev.wired (d : Dev) : Bool := d.pairSecondary || d.isMember

/-- The time planned for the next pulse, where the frame of the latest tick plans one (R574). -/
def Dev.pulsePlan (d : Dev) : Option Ts :=
  match d.link.tick with
  | some t => if t.tick == d.clk.tickNo && t.period ≠ 0 then some (t.ts + BitVec.ofNat 48 t.period) else none
  | none => none

/-- A pulse more than 1.0 µs from its planned time is noted (R574). -/
def Dev.notePulse (d : Dev) : Dev :=
  match d.pulsePlan with
  | some t =>
    let off := signed 48 (d.clk.now - t).toNat
    if d.wired && 25 < off.natAbs then { d with link.stray := some (10 * off + d.link.edge.val) } else d
  | none => d

/-- Whether a pulse now begins a line (R573, R574): the chip holds the TICK frame of the tick before, which announces a
line, and the pulse is within 1.0 µs of the planned time. After a start set the frame plans no time. -/
def Dev.pulseFits (d : Dev) : Bool :=
  match d.link.tick with
  | none => false
  | some t =>
    let plan := t.ts + BitVec.ofNat 48 t.period
    t.tick == d.clk.tickNo && !t.noLine && (t.period = 0 || (signed 48 (d.clk.now - plan).toNat).natAbs ≤ 25)

/-- The timestamp of the tick that is due now: at a pulse, at a boundary that the travel has reached, at the planned time
of a line from rest or under timer ticks. -/
def Dev.tickNow (d : Dev) : Option Ts :=
  if d.wired then some d.clk.now else
  match d.mot.tickDue with
  | some t => some t
  | none =>
    match d.line.band with
    | none => none
    | some b =>
      let timed := b.phase == .firing && (if b.fromRest then d.tickSource ≠ 1 else d.tickSource == 2)
      if timed && !d.endsHere b && atOrAfter d.clk.now d.line.planned then some d.line.planned else none

/-- The line under way has not ended 1.00 µs before this tick (R258, R316). -/
def Dev.fireLate (d : Dev) : Bool :=
  match d.line.fire with
  | none => false
  | some f => !f.ended || !d.past f.endTs us

/-- The pending line that this tick would begin. -/
def Dev.linePending (d : Dev) : Option PendLine :=
  match d.line.band with
  | none => none
  | some b =>
    if b.phase != .firing then none
    else d.line.pend.filter fun (p : PendLine) =>
      (p.seq == rSeq b.raw && p.idx == b.next) || (d.line.following.map fun n => rSeq n.raw == p.seq).getD false

/-- Whether a band's line is due at this tick. -/
def Dev.lineDue (d : Dev) : Bool :=
  match d.line.band with
  | none => false
  | some b => b.phase == .firing && !(d.endsHere b) && (!d.wired || d.pulseFits)

/-- The tick is raised: its number, its timestamp, the sample sequence, the pulse on the ring (R19 step 1, R572). -/
def Dev.raiseTick (d : Dev) (ts : Ts) : Dev :=
  { d with
    clk.tickNo := d.clk.tickNo + 1, clk.tickTs := ts, line.sampled := !d.onFallback
    link := { d.link with tickOut := if d.onRing && d.ticksRing then some ts else d.link.tickOut
                          ticked := true, planOut := false, planOwed := false } }

/-- In a formed pair the primary waits no longer than the second tick after a line for its ECHO (R593). -/
def Dev.echoCheck (d : Dev) : Dev :=
  if !d.pairPrimary then d else
  match d.link.lineCrcs.find? fun x => x.1 + 2 == d.clk.tickNo with
  | some x => if d.link.echoed.any (fun e => e.1 == x.1) then d else d.dissolve 6 0 x.1.toNat x.2.1.toNat
  | none => d

/-- The line due at this tick does not begin, and the band stops at this boundary (R15, R316). -/
def Dev.overrunStop (d : Dev) : Dev :=
  let d := d.overrun
  if (d.line.band.map fun b => b.phase == .firing).getD false then d.stopBand cTickOverrun 0 true else d

/-- Kill inputs of a port that hold past a line boundary: a readback mismatch, and a strobe guard whose trip was
shadowed, are released at the boundary (R267, R269). -/
def Head.heldKills (h : Head) : List W16 :=
  h.kills.filter fun c => c ≠ cReadbackMismatch && (c ≠ cStrobeGuard || h.stopped)

/-- The kill input that keeps the band's line from beginning (R282). -/
def Dev.tickKill (d : Dev) : Option W16 :=
  match d.line.band with
  | none => none
  | some b => (portsOf (rMask b.raw)).findSome? fun p => (d.heads.get p).heldKills.head?

/-- The kill inputs that end at a line boundary are released. -/
def Dev.freeKills (d : Dev) : Dev := { d with heads := d.heads.mapIdx fun _ h => { h with kills := h.heldKills } }

/-- Steps 3 to 5 of R19: the ended line, the line that begins, the sections that go back, the records admitted. A line still
firing goes on (R23). -/
def Dev.tickWork (d : Dev) (ts : Ts) (line : Option PendLine) : Dev :=
  let next := match d.line.following with
    | some n => some n
    | none => none
  let d := (if d.fireLate then d else d.endLine).freeKills
  let d := if line.isSome then d else d.forgetPlanes
  let d := match d.line.band, next with
    | none, some n => d.follow n
    | _, _ => d
  let d := (match line with | some p => d.beginLine ts p | none => d).withdrawDue.takeAtLine
  let d := d.echoCheck
  let d := (List.range 28).foldl (fun d n => d.releaseSection n) d
  d.admitAll (fun _ => true) 1024

/-- A pulse on the tick wire before READY: the one that this chip has marked, or the marked one that loads its time
(R585). -/
def Dev.markPulse (d : Dev) : Dev :=
  match d.link.mark, d.link.markAt with
  | some (ts, tick), _ => { d with clk := { d.clk with now := ts, tickNo := tick }, link := { d.link with mark := none } }
  | none, some t => if atOrAfter d.clk.now t then { d with link := { d.link with markAt := none, tickOut := some d.clk.now } } else d
  | none, none => d

/-- A tick at which no line begins: on a chip that follows the pulses, and under a record whose travel raises ticks. -/
def Dev.bareTick (d : Dev) (ts : Ts) : Dev := (d.raiseTick ts).tickWork ts none

/-- The band's line does not begin at this boundary: no tick is raised (R151), but on a chip that follows the pulses, which
counts the one that has come (R8, R573). -/
def Dev.noLine (d : Dev) (ts : Ts) : Dev := if d.wired then d.bareTick ts else d

/-- Step 2 of R19. A member whose plan for this period is out can still meet this boundary's line and no earlier stop, so its
reactions start one boundary later (R39). -/
def Dev.tickReacts (d : Dev) : Dev := if d.isMember && d.link.planOut then d else d.startWaiting

/-- What a due tick does. -/
def Dev.tickAt (d : Dev) (ts : Ts) : Dev :=
  let d := { d with mot.tickDue := none }.tickReacts
  if !d.lineDue then
    if d.mover.isSome && d.framesMissing then
      (match d.mover with | some q => d.setWait q (some (cLinkDown, 0)) | none => d).pauseMove
    else if d.wired || d.line.band.isNone || d.mover.isSome then d.bareTick ts
    else d
  else if d.framesMissing then d.stopBand cLinkDown 0 true
  else match d.tickKill with
  | some c => (d.stopBand c 0 true).noLine ts
  | none =>
    let ready := match d.linePending with | some p => p.complete && d.line.shiftDone | none => false
    let waits := d.wired && (d.line.band.map fun b => b.fromRest).getD false ||
      d.isMember && d.line.pend.isNone && (d.line.band.map fun b => !d.linePresent b.raw b.base b.next).getD false
    if ready && !d.fireLate then (d.raiseTick ts).tickWork ts d.linePending
    else if waits then d.bareTick ts
    else d.overrunStop.noLine ts

/-- LINE_TICK. On a ring fine is the place of the edge at LNK_TICK_IN within its unit. -/
def lineTick (fine : Fin 10) (d : Dev) : Dev :=
  if d.link.mark.isSome || d.link.markAt.isSome then d.markPulse else
  if !d.operating || !d.sys.ready then d else
  match d.tickNow with
  | none => d
  | some ts => ({ d with link.edge := fine }.notePulse).tickAt ts

/-! ## The commands -/

/-- LINE_TICK. -/
def execLineTick (fine : Fin 10) (s : State) : Host.Outcome State Fault Refusal := .next { s with dev := (lineTick fine s.dev).finish }
/-- SAMPLE_SET_COMPLETE. -/
def execSampleSetComplete (set : SampleSet) (s : State) : Host.Outcome State Fault Refusal :=
  .next { s with dev := (sampleSet set s.dev).finish }
/-- PRESS_LINE_COMPLETE. -/
def execPressLineComplete (cmp : CrossCheck) (s : State) : Host.Outcome State Fault Refusal :=
  .next { s with dev := (pressDone cmp s.dev).finish }
/-- SLICE_PARITY_ERROR. -/
def execSliceParityError (k : Fin 4) (s : State) : Host.Outcome State Fault Refusal :=
  .next { s with dev := (sliceParity k s.dev).finish }
/-- START_SAMPLE_SET_DONE. -/
def execStartSampleSetDone (set : SampleSet) (s : State) : Host.Outcome State Fault Refusal :=
  .next { s with dev := (startSet set s.dev).finish }
/-- BAND_RESUME. -/
def execBandResume (s : State) : Host.Outcome State Fault Refusal := .next { s with dev := (bandResume s.dev).finish }

end Sys2Proof.Machine
end

