-- ==== Sys2Proof/Machine/Heads.lean ====
section
/-! DEFINITION. The head ports: shifting and transfers with readback, strobe phases, the guard and its kill inputs,
temperatures and supplies, and tasting (07, R249 to R294). -/

namespace Sys2Proof.Machine

/-! ## Readback (R265 to R267) -/

/-- do_lane and do_latency of a port's card, lane 0 and one clock without a card (R265). -/
def Dev.readLane (d : Dev) (p : Fin 4) : Nat × Nat :=
  match d.card p with | some c => (le c 0x17 1 % 16, le c 0x17 1 / 16 % 4) | none => (0, 1)

/-- The first element of the outgoing plane whose sample differs from the bit sent, with the level sampled: element k is
sampled at edge k + D_r - 1 of a shift of n edges. -/
def mismatch (sent : List Bool) (latency n : Nat) (rb : List Bool) : Option (Nat × Bool) :=
  (((sent.zip rb).zipIdx).find? fun x => x.2 + latency ≤ n && x.1.1 != x.1.2).map fun x => (x.2, x.1.2)

/-- The bits of one lane of a plane, element 0 first (R180, R265). -/
def laneBits (m : SegMap) (lane : Nat) (words : List Nat) (s : Nat) : List Bool := (laneSeq m lane).map fun x => bit (words.getD x 0) s

/-- The levels that a shift leaves on a port's lanes: each lane's last element (R180, R249; DEDUCED, log entry 124). -/
def lastBits (m : SegMap) (lanes : Nat) (words : List Nat) (s : Nat) : BitVec 16 :=
  (List.range lanes).foldl (init := 0) fun v l =>
    if ((laneBits m l words s).getLast?).getD false then v ||| BitVec.ofNat 16 (2 ^ l) else v

/-- Detail fields of a head record: the line damaged, or the line not begun (R282). -/
def Dev.lineFor (d : Dev) (ps : List (Fin 4)) : Nat × Nat :=
  if d.cuts ps then (d.firingTick, d.slotsFired)
  else if ps.any fun p => d.bandFeeds p.val then (d.nextLineTick, 0) else (noTick, 0)

/-- Whether a reaction or a kill input has stopped a port: its strobes, its shifting and its readback (R37, R269). -/
def Dev.portHeld (d : Dev) (p : Fin 4) : Bool :=
  !(d.heads.get p).kills.isEmpty || (d.line.fire.map fun (f : FireLine) => f.killed.getLsbD p.val).getD false

/-- Compare the samples of a shift with the outgoing plane (R265 to R267): a mismatch suppresses the remaining strobes of
a line still firing. -/
def Dev.readback (d : Dev) (p : Fin 4) (rb : List Bool) : Dev :=
  let h := d.heads.get p
  let b := d.pers.ports.get p
  let (lane, lat) := d.readLane p
  match h.shiftReg, d.line.band with
  | some ws, some bd =>
    if lat = 0 || b.lanes ≤ lane then d else
    match mismatch (laneBits (bd.maps.get p) lane ws h.regPlane) lat (b.dots / max b.lanes 1) rb with
    | none => d
    | some (k, v) =>
      let (tick, slots) := d.lineFor [p]
      let d := if d.cuts [p] then d.kill [p] cReadbackMismatch p.val else d
      (d.raisePort cReadbackMismatch p (headDetail tick slots h.regPlane k (b2n v) 0)).shadowPorts [p]
  | _, _ => d

/-- A plane begins to shift into a port: the outgoing plane is compared, then the register holds the new one, and its lanes the
last element of their sequences. Into a port that is stopped nothing shifts, and its register counts as unknown (R37, R266). -/
def Dev.shiftIn (d : Dev) (rb : Quad (List Bool)) (ps : List (Fin 4)) (words : Quad (List Nat)) (s : Nat) : Dev :=
  d.each4 ps fun p d =>
    if d.portHeld p then d.onHead p fun h => { h with shiftReg := none }
    else
      let d := d.readback p (rb.get p)
      let map := match d.line.band with | some b => b.maps.get p | none => {}
      if d.portHeld p then d.onHead p fun h => { h with shiftReg := none }
      else d.onHead p fun h => { h with shiftReg := some (words.get p), regPlane := s,
                                        lanes := lastBits map (d.pers.ports.get p).lanes (words.get p) s }

/-- Ports of a band. -/
def Dev.bandPorts (d : Dev) : List (Fin 4) := match d.line.band with | some b => portsOf (rMask b.raw) | none => []

/-! ## Strobe groups and phases (R260 to R264) -/

/-- A strobe group's part in a slot: port, group, on dots, current in mA. -/
structure Part where
  p : Fin 4
  g : Nat
  n : Nat
  i : Nat
deriving DecidableEq, Repr

/-- Clear the bits of a group in a slot from the highest dot downward until its current is within the budget: the dots
left, highest first, with the current left and the highest dot cleared (R262). -/
def trimGroup (budget : Nat) : List (Nat × Nat) → Nat → Option Nat → List (Nat × Nat) × Nat × Option Nat
  | [], i, top => ([], i, top)
  | (x, c) :: rest, i, top =>
    if i ≤ budget then ((x, c) :: rest, i, top) else trimGroup budget rest (i - c) (some (top.getD x))

/-- One pass of R263: the groups that join the phase, and those that are left. -/
def onePhase (budget : Nat) (cap : Fin 4 → Nat) : List Part → Nat → Quad Nat → List Part × List Part
  | [], _, _ => ([], [])
  | x :: rest, cur, cnt =>
    if cur + x.i ≤ budget && cnt.get x.p + x.n ≤ cap x.p then
      let (a, b) := onePhase budget cap rest (cur + x.i) (cnt.set x.p (cnt.get x.p + x.n))
      (x :: a, b)
    else
      let (a, b) := onePhase budget cap rest cur cnt
      (a, x :: b)

/-- The phases of a slot (R263). -/
def phasesOf (budget : Nat) (cap : Fin 4 → Nat) : Nat → List Part → List (List Part)
  | 0, _ => []
  | _, [] => []
  | f + 1, l => let (a, b) := onePhase budget cap l 0 (Quad.all 0); a :: phasesOf budget cap f b

/-- The on dots of group g of a port in slot s with their currents, highest dot first; v is the VH input that the line is
computed from (R261, R318). -/
def Dev.groupDots (d : Dev) (p : Fin 4) (g s v : Nat) (slots : List Nat) (plan : Plan) : List (Nat × Nat) :=
  let starts := d.groupStarts p
  let lo := starts.getD g 0
  let hi := starts.getD (g + 1) (d.pers.ports.get p).dots
  let ws := d.dotWords p
  let nom := d.rNominal p plan
  (((List.range (hi - lo)).map (· + lo)).filter fun x => bit (slots.getD x 0) s).reverse.map fun x =>
    let r := wRes (ws.getD x 0)
    (x, 20 * v / max (if r = 0 then nom else r) 1)

/-- BUDGET_TRIM, once per band and port (R262). -/
def Dev.trimNote (d : Dev) (t : Trim) : Dev :=
  match d.line.band with
  | none => d
  | some b =>
    if b.trimPosted.getLsbD t.p.val then d else
    let d := { d with line.band := some { b with trimPosted := b.trimPosted ||| BitVec.ofNat 4 (2 ^ t.p.val) } }
    d.raise { code := cBudgetTrim, sub := t.p.val, sev := some .note, lvl := .port, port := t.p.val, job := rJob b.raw, ports := 2 ^ t.p.val,
              detail := headDetail d.firingTick t.s t.g (t.i / 10) (d.budget * 10) t.top }

/-- A port's slot words with every group of every slot within the budget, and what was trimmed (R262). -/
def Dev.trimPort (d : Dev) (p : Fin 4) (v : Nat) (slots : List Nat) (plan : Plan) : List Nat × List Trim :=
  let groups := List.range (d.groupStarts p).length
  ((List.range plan.s).map fun s => groups.map fun g => (s, g)).flatten.foldl (init := (slots, ([] : List Trim)))
    fun (acc : List Nat × List Trim) (sg : Nat × Nat) =>
      let dots := d.groupDots p sg.2 sg.1 v acc.1 plan
      let i := dots.foldl (fun n y => n + y.2) 0
      match trimGroup (d.budget * 100) dots i none with
      | (left, _, some top) =>
        let cleared : List Nat := (dots.filter fun y => !left.contains y).map Prod.fst
        ((acc.1.zipIdx).map (fun (w, j) => if cleared.contains j then w - (w &&& 2 ^ sg.1) else w), acc.2 ++ [⟨p, sg.2, sg.1, i, top⟩])
      | _ => acc

/-- The computed line as it shifts: its planes within the budget (R262). -/
def Dev.trimLine (d : Dev) (pn : PendLine) (plan : Plan) : PendLine :=
  let all : Quad (List Nat × List Trim) := pn.outs.mapIdx fun p o => match o with | some o => d.trimPort p (pn.vh.get p) o.slots plan | none => ([], [])
  { pn with planes := all.mapIdx fun _ x => x.1, trims := (all.toList.map (·.2)).flatten }

/-- The parts of a slot in the order of R263 (R261). -/
def Dev.slotParts (d : Dev) (f : FireLine) (s : Nat) (plan : Plan) : List Part :=
  let all := (fin4.map fun p => if (f.slots.get p).isEmpty then [] else (List.range (d.groupStarts p).length).map fun g => (p, g)).flatten
  all.filterMap fun pg =>
    let dots := d.groupDots pg.1 pg.2 s (f.vh.get pg.1) (f.slots.get pg.1) plan
    if dots.isEmpty then none else some ⟨pg.1, pg.2, dots.length, dots.foldl (fun n y => n + y.2) 0⟩

/-- Plane 0 of a line begins to shift while a takeover is under way: 1.0 µs or more after the conditions of R595 held it is the
takeover line's, and the head outputs are driven from here on (R596). -/
def Dev.shiftStarts (d : Dev) : Dev :=
  if d.link.takeover.isNone then d
  else if d.past d.link.takeTs 25 then { d with link := { d.link with takeHeads := true } }
  else { d with link := { d.link with takeWait := true } }

/-- PLANE_SHIFT_START: plane 0 of the next line, trimmed to the budget (R257, R262); an incomplete press result is an overrun (R15, R316). A port that
fires no line has an unknown register (R266). -/
def planeShift (rb : Quad (List Bool)) (d : Dev) : Dev :=
  let firing := (d.line.fire.map fun (f : FireLine) => decide (f.slot < f.durs.length)).getD false
  if !d.operating || d.line.shiftDone || firing || !(d.line.band.map fun b => b.phase == .firing).getD false then d else
  match d.line.pend with
  | none => d
  | some pn =>
    if !pn.complete then d.overrunStop else
    let ps := fin4.filter fun p => (pn.outs.get p).isSome
    let plan := match d.line.following, d.line.band with | some n, _ => n.plan | none, some b => b.plan | none, none => {}
    let pn := d.trimLine pn plan
    let d := { d with line := { d.line with shiftDone := true, pend := some pn } }.shiftStarts
    let d := d.each4 (fin4.filter fun p => !ps.contains p) fun p d => d.onHead p fun h => { h with shiftReg := none }
    d.shiftIn rb ps pn.planes 0

/-- Assert the strobes of a phase on every port that no kill input holds, and release all others (R264, R269). A port that a
thermistor fault stops completes its line (R280). -/
def Dev.strobePhase (d : Dev) (l : List (Nat × Nat)) : Dev :=
  { d with heads := d.heads.mapIdx fun p h =>
      let m := (l.filter fun x => x.1 = p.val).foldl (fun m x => m ||| BitVec.ofNat 8 (2 ^ x.2)) (0 : BitVec 8)
      let off := (d.line.fire.map fun (f : FireLine) => f.killed.getLsbD p.val).getD true || !h.kills.isEmpty
      { h with strobes := if off then 0 else m } }

/-- SLOT_TRANSFER: the plane of the next slot transfers, the strobes of its first phase assert, and the plane after it
begins to shift (R254, R255, R264). -/
def slotTransfer (rb : Quad (List Bool)) (d : Dev) : Dev :=
  match d.line.fire with
  | none => d
  | some f =>
    if !d.operating || f.ended || !f.phases.isEmpty || f.durs.length ≤ f.slot then d else
    let s := f.slot
    let ps := fin4.filter fun p => !(f.slots.get p).isEmpty
    let plan := match d.line.band with | some b => b.plan | none => {}
    -- the plane in the register transfers
    let d := d.each4 (ps.filter fun p => !d.portHeld p) fun p d => d.onHead p fun h => { h with latch := some (f.slots.get p), latchPlane := s }
    let parts := d.slotParts f s plan
    let phases := (phasesOf (d.budget * 100) (fun p => (d.pers.ports.get p).peakDots) (parts.length + 1) parts).map
      fun l => l.map fun x => (x.p.val, x.g)
    let phases := if phases.isEmpty then [[]] else phases
    let d := { d with line.fire := some { f with slot := s + 1, phases := phases, phase := 0 } }
    let d := ((f.trims.filter fun t => t.s = s).foldl Dev.trimNote d).strobePhase (phases.headD [])
    if s + 1 < f.durs.length then d.shiftIn rb ps f.slots (s + 1) else d

/-- PHASE_BOUNDARY: the strobes of the phase release and those of the next assert; after the last phase the slot has
ended, after the last slot the line (R256, R258, R264). -/
def phaseBoundary (d : Dev) : Dev :=
  match d.line.fire with
  | none => d
  | some f =>
    if !d.operating || f.ended || f.phases.isEmpty then d
    else if f.phase + 1 < f.phases.length then
      { d with line.fire := some { f with phase := f.phase + 1 } }.strobePhase (f.phases.getD (f.phase + 1) [])
    else
      let last := decide (f.durs.length ≤ f.slot)
      { d with line.fire := some { f with phases := [], phase := 0, ended := last, endTs := if last then d.clk.now else f.endTs } }.strobePhase []

/-! ## The guard and the monitors (R268 to R281) -/

/-- STROBE_GUARD (R268, R269). -/
def strobeGuard (p : Fin 4) (g : Fin 8) (d : Dev) : Dev :=
  if !d.operating then d else
  let (tick, slots) := d.lineFor [p]
  ((d.kill [p] cStrobeGuard p.val).raisePort cStrobeGuard p (headDetail tick slots g.val 0 0 0)).shadowPorts [p]

/-- STROBE_STUCK: HMEAS goes high through logic that needs no clock and stays so until a power-on reset or RESET_N; before
READY the fault waits for the session (R270, R517). A personality error keeps HMEAS low (R78). -/
def strobeStuck (p : Fin 4) (g : Fin 8) (d : Dev) : Dev :=
  if d.persError then d else
  -- the line under way, though the guard has cut it already
  let under := d.bandFeeds p.val && (d.line.fire.map fun (f : FireLine) => !f.ended).getD false
  let (tick, slots) := if under then (d.firingTick, d.slotsFired) else d.lineFor [p]
  { d with sys := { d.sys with hmeas := true, hmeasStuck := true, hmeasFallTs := none } }.raise
    { code := cStrobeStuck, sub := p.val, sev := some .stopDevice, lvl := .device, port := p.val,
      job := if d.bandFeeds p.val then d.bandJob else none, ports := 2 ^ p.val, detail := headDetail tick slots g.val 0 0 0 }

/-- HEAD_OVERTEMP_HARD: the hard-limit comparator trips (R274, R275). -/
def overtempHard (p : Fin 4) (d : Dev) : Dev :=
  if !d.alive || !d.portOn p || (d.heads.get p).hardTrip then d else
  let (tick, slots) := d.lineFor [p]
  let t := d.tempOf p (d.heads.get p).rawTh
  (((d.kill [p] cHeadOvertempHard p.val).onHead p fun h => { h with hardTrip := true }).raisePort cHeadOvertempHard p
    (headDetail tick slots 0 t (d.hardLimit p) 0)).shadowPorts [p]

/-- HARD_LIMIT_RECHECK: while the media rests, the trip ends at 10.0 K below the hard limit (R276). -/
def hardRecheck (p : Fin 4) (c : Adc) (d : Dev) : Dev :=
  if !d.operating || !(d.heads.get p).hardTrip || d.mot.travel != .rest then d else
  let d := d.onHead p fun h => { h with rawTh := c }
  if d.tempOf p c ≤ d.hardLimit p - 80 then
    (((d.onHead p fun h => { h with hardTrip := false }).unkill [p] cHeadOvertempHard).endCond cHeadOvertempHard p.val)
  else d

/-- VH_LOW_RECHECK: twenty consecutive readings at or above 1.05 times vh_min end it (R278, R280). -/
def vhRecheck (p : Fin 4) (c : Adc) (d : Dev) : Dev :=
  match (d.heads.get p).vhLow with
  | none => d
  | some n =>
    if !d.operating || !d.vhEvaluated then d else
    let d := d.onHead p fun h => { h with rawVh := c }
    if vhOf c.toNat * 20 < d.vhMin p * 21 then d.onHead p fun h => { h with vhLow := some 0 }
    else if n + 1 < 20 then d.onHead p fun h => { h with vhLow := some (n + 1) }
    else (d.onHead p fun h => { h with vhLow := none }).endCond cVhLow p.val

/-- VH_HIGH: the over-voltage comparator trips (R279). -/
def vhHigh (p : Fin 4) (c : Adc) (d : Dev) : Dev :=
  if !d.alive || !d.portOn p || (d.heads.get p).vhHighOn then d else
  let (tick, slots) := d.lineFor [p]
  (((d.kill [p] cVhHigh p.val).onHead p fun h => { h with vhHighOn := true }).raisePort cVhHigh p
    (headDetail tick slots 0 (vhOf c.toNat) 3690 0)).shadowPorts [p]

/-- HEAD_OPEN for an open head: its kill input and its fault (R269, R281). -/
def Dev.headRaise (d : Dev) (p : Fin 4) : Dev :=
  let (tick, slots) := d.lineFor [p]
  ((d.kill [p] cHeadOpen p.val).raisePort cHeadOpen p (headDetail tick slots 0 0 0 0)).shadowPorts [p]

/-- open_input of a port: high means open and a filter of 1 µs without a card (R281). -/
def Dev.openInput (d : Dev) (p : Fin 4) : Nat := match d.card p with | some c => le c 0x1C 1 | none => 4

/-- Whether a level of HPn_OPEN says that the head is open (R281). -/
def Dev.openActive (d : Dev) (p : Fin 4) (high : Bool) : Bool := high != bit (d.openInput p) 0

/-- HEAD_OPEN: HPn_OPEN has had a level for ns; past its filter the active level opens the head (R281). In Doze only the kill
input acts; the pin is evaluated on waking (R532). -/
def headOpen (p : Fin 4) (high : Bool) (ns : BitVec 16) (d : Dev) : Dev :=
  if !d.alive || !d.portOn p || ns.toNat < filterNs (d.openInput p) || !d.openActive p high then d else
  let d := d.onHead p fun h => { h with openPin := true }
  if d.awake then d.headRaise p else d.kill [p] cHeadOpen p.val

/-- HEAD_OPEN_CLEAR: HPn_OPEN has had a level for 100 ms; the inactive one ends the condition. -/
def headOpenClear (p : Fin 4) (high : Bool) (d : Dev) : Dev :=
  if !d.alive || !(d.heads.get p).openPin || d.openActive p high then d else
  ((d.onHead p fun h => { h with openPin := false }).unkill [p] cHeadOpen).endCond cHeadOpen p.val

/-! ## The commands -/

/-- PLANE_SHIFT_START. -/
def execPlaneShiftStart (rb : Quad (List Bool)) (s : State) : Host.Outcome State Fault Refusal :=
  .next { s with dev := (planeShift rb s.dev).finish }
/-- SLOT_TRANSFER. -/
def execSlotTransfer (rb : Quad (List Bool)) (s : State) : Host.Outcome State Fault Refusal :=
  .next { s with dev := (slotTransfer rb s.dev).finish }
/-- PHASE_BOUNDARY. -/
def execPhaseBoundary (s : State) : Host.Outcome State Fault Refusal := .next { s with dev := (phaseBoundary s.dev).finish }
/-- STROBE_GUARD. -/
def execStrobeGuard (p : Fin 4) (g : Fin 8) (s : State) : Host.Outcome State Fault Refusal :=
  .next { s with dev := (strobeGuard p g s.dev).finish }
/-- STROBE_STUCK. -/
def execStrobeStuck (p : Fin 4) (g : Fin 8) (s : State) : Host.Outcome State Fault Refusal :=
  .next { s with dev := (strobeStuck p g s.dev).finish }
/-- HEAD_OVERTEMP_HARD. -/
def execHeadOvertempHard (p : Fin 4) (s : State) : Host.Outcome State Fault Refusal :=
  .next { s with dev := (overtempHard p s.dev).finish }
/-- HARD_LIMIT_RECHECK. -/
def execHardLimitRecheck (p : Fin 4) (code : Adc) (s : State) : Host.Outcome State Fault Refusal :=
  .next { s with dev := (hardRecheck p code s.dev).finish }
/-- VH_LOW_RECHECK. -/
def execVhLowRecheck (p : Fin 4) (code : Adc) (s : State) : Host.Outcome State Fault Refusal :=
  .next { s with dev := (vhRecheck p code s.dev).finish }
/-- VH_HIGH. -/
def execVhHigh (p : Fin 4) (code : Adc) (s : State) : Host.Outcome State Fault Refusal :=
  .next { s with dev := (vhHigh p code s.dev).finish }
/-- HEAD_OPEN. -/
def execHeadOpen (p : Fin 4) (high : Bool) (ns : BitVec 16) (s : State) : Host.Outcome State Fault Refusal :=
  .next { s with dev := (headOpen p high ns s.dev).finish }
/-- HEAD_OPEN_CLEAR. -/
def execHeadOpenClear (p : Fin 4) (high : Bool) (s : State) : Host.Outcome State Fault Refusal :=
  .next { s with dev := (headOpenClear p high s.dev).finish }

end Sys2Proof.Machine
end

