-- ==== Sys2Proof/Machine/Tasting.lean ====
section
/-! DEFINITION. The tasting run's steps (R288 to R293). -/

namespace Sys2Proof.Machine

/-- Whether the sum of 16 conversions is an open reading of 500 to 637 codes (R289). -/
def openOk (sum : BitVec 16) : Bool := 16 * 500 ≤ sum.toNat && sum.toNat ≤ 16 * 637

/-- R290: the resistance in 0.5 ohm of a dot from the sums of its own and the open reading, the driver's resistance
taken off. -/
def tasteRes (sd so drv : Nat) : Nat := (clampI 1 4095 ((roundDiv (328000000 * sd) (200820 * max (so - sd) 1) : Int) - (drv : Int))).toNat

/-- Ports named by the tasting run. -/
def Dev.tastePorts (d : Dev) (t : Taste) : List (Fin 4) := match d.adm t.seq with | some a => portsOf (rMask a.raw) | none => []

/-- Strobe group of a physical dot (R260). -/
def Dev.groupOf (d : Dev) (p : Fin 4) (dot : Nat) : Nat := ((d.groupStarts p).filter (· ≤ dot)).length - 1

/-- A plane that holds only one dot is latched on every named port, and the strobe of the dot's group asserts (R289 step
3). Before a dot whose number is a multiple of 64 the open reading comes first, with no dot on: an all-zero plane and no
strobe, until TASTE_DOT_DONE brings both readings (R289 step 4, log entry 126). -/
def Dev.tasteDot (d : Dev) (t : Taste) : Dev :=
  let block := decide (t.dot % 64 = 0)
  let d := d.each4 (d.tastePorts t) fun p d => d.onHead p fun h => { h with
    latch := some (if block then [] else List.replicate t.dot 0 ++ [1]), latchPlane := 0, shiftReg := none
    strobes := if h.kills.isEmpty && !h.stopped && !block then BitVec.ofNat 8 (2 ^ d.groupOf p t.dot) else 0 }
  { d with taste := some { t with stage := 1, stageTs := d.clk.now } }

/-- Step 5: an all-zero plane, HMEAS low, 2.0 ms; after the last dot the record is complete (R150). -/
def Dev.tasteRelease (d : Dev) (t : Taste) : Dev :=
  let d := d.each4 (d.tastePorts t) fun p d => d.onHead p fun h => { h with latch := some [], strobes := 0, shiftReg := none }
  { d with taste := some { t with stage := 2, stageTs := d.clk.now } }.hmeasLow

/-- TASTE_SETUP_DONE: the open reading after the set-up dwell (R289 steps 1 and 2). -/
def tasteSetup (sums : Quad (BitVec 16)) (d : Dev) : Dev :=
  match d.taste with
  | none => d
  | some t =>
    if !d.operating || t.stage ≠ 0 || !d.past t.stageTs (2 * ms) then d else
    let t := { t with open16 := sums.mapIdx fun _ v => v.toNat }
    if (d.tastePorts t).any fun p => !openOk (sums.get p) then
      if t.found.toList.all (·.isEmpty) then d.closeTaste t { res := .refused, code := cTasteSource }
      -- a run that goes on after it yielded has done work, so it is not refused (R30; DEDUCED, log entry 127)
      else (d.tasteRelease t).completeTaste t { res := .abandoned, code := cTasteSource }
    else if t.yielding then d.tasteRelease t
    else d.tasteDot t

/-- One port's reading of the present dot: its resistance field, and with a card at once whether it is dead (R290,
R291). -/
def Dev.readDot (d : Dev) (t : Taste) (p : Fin 4) (sd : Nat) : Dev × Taste :=
  let so := t.open16.get p
  let drv := match d.card p with | some c => le c 0x18 2 | none => 0
  let isOpen := 99 * so ≤ 100 * sd
  let r := if isOpen then 4095 else tasteRes sd so drv
  let ws := (d.dotWords p).zipIdx.map fun (w, i) => if i = t.dot then mkWord (wState w) (wCarry w) r else w
  let d := d.onHead p fun h => { h with dots := compactDots ws }
  let job := (d.adm t.seq).bind fun a => rJob a.raw
  let (d, c) := match d.card p with
    | some card => d.dotFound p job t.dot r (tasteCause isOpen r (le card 0x14 2))
    | none => (d, b2n isOpen)
  (d, { t with found := t.found.set p (t.found.get p ++ [(t.dot, r, c)]) })

/-- TASTE_DOT_DONE: the reading of the present dot; before each dot whose number is a multiple of 64 a new open reading
(R289 steps 3 and 4). -/
def tasteDotDone (sums : Quad (BitVec 16)) (reopen : Option (Quad (BitVec 16))) (d : Dev) : Dev :=
  match d.taste with
  | none => d
  | some t =>
    let block := decide (t.dot % 64 = 0)
    if !d.operating || t.stage ≠ 1 || !d.past t.stageTs (if block then 800 * us else 400 * us) || block != reopen.isSome then d else
    let t := match reopen with | some o => { t with open16 := o.mapIdx fun _ v => v.toNat } | none => t
    if (match reopen with | some o => (d.tastePorts t).any fun p => !openOk (o.get p) | none => false) then
      (d.tasteRelease t).completeTaste t { res := .abandoned, code := cTasteSource }
    else
      let (d, t) := (d.tastePorts t).foldl (init := (d, t)) fun (x : Dev × Taste) (p : Fin 4) => x.1.readDot x.2 p (sums.get p).toNat
      let t := { t with dot := t.dot + 1 }
      let stop := match d.adm t.seq with | some a => tFirst a.raw + tCount a.raw | none => 0
      if stop ≤ t.dot then (d.tasteRelease t).completeTaste t {}
      else if t.yielding then d.tasteRelease t else d.tasteDot t

/-- TASTE_RELEASE_DONE: a run that is complete leaves the heads; one that has yielded waits for the band (R289 step 5,
R293). -/
def tasteReleaseDone (d : Dev) : Dev :=
  match d.taste with
  | none => d
  | some t =>
    if !d.operating || t.stage ≠ 2 || !d.past t.stageTs (2 * ms) then d else
    if t.ended then { d with taste := none }
    else { d with taste := some { t with stage := 3, yielding := false, stageTs := d.clk.now } }

/-! ## The commands -/

/-- TASTE_SETUP_DONE. -/
def execTasteSetupDone (sums : Quad (BitVec 16)) (s : State) : Host.Outcome State Fault Refusal :=
  .next { s with dev := (tasteSetup sums s.dev).finish }
/-- TASTE_DOT_DONE. -/
def execTasteDotDone (sums : Quad (BitVec 16)) (reopen : Option (Quad (BitVec 16))) (s : State) : Host.Outcome State Fault Refusal :=
  .next { s with dev := (tasteDotDone sums reopen s.dev).finish }
/-- TASTE_RELEASE_DONE. -/
def execTasteReleaseDone (s : State) : Host.Outcome State Fault Refusal := .next { s with dev := (tasteReleaseDone s.dev).finish }

end Sys2Proof.Machine
end

