-- ==== Sys2Proof/Machine/Drives.lean ====
section
/-! DEFINITION. The encoders and the axes: counts, steps, stalls, jams, releases and overcurrent (R301 to R305, R339,
R341, R355, R356, R361 to R367). -/

namespace Sys2Proof.Machine

/-! ## Line boundaries -/

/-- Whether the next line boundary of the band raises a tick: a line of the band, or of one that follows at once,
begins there. -/
def Dev.raisesTick (d : Dev) (b : BandRt) : Bool :=
  b.phase == .firing && !d.endsHere b &&
    (b.next < b.lines || d.line.following.isSome || (match d.chained b with | some n => d.leadLines n.raw == 0 | none => false))

/-- Whether a record moves the media forward and raises ticks (R295). -/
def Dev.forwardMove (d : Dev) : Bool := d.moveTicks && d.mot.travel != .rest

/-- The count that the encoder has at a media position, by the base of R342 and counts_per_line (R370). -/
def Dev.countAt (d : Dev) (m : Int) : Int := d.mot.lineBase + ((m - d.mot.baseM) * (d.mot.cpl : Int) + 2097152) / 4194304

/-- The watermark has risen to a new count: under encoder ticks a tick is raised at the boundary that it reaches (R297,
R301). -/
def Dev.markRises (d : Dev) : Dev :=
  if d.tickSource ≠ 1 || d.mot.cpl = 0 || d.mot.tickDue.isSome then d else
  match d.line.band with
  | some b =>
    if d.bandMoves && d.raisesTick b && d.countAt (b.bound b.next) ≤ d.mot.mark then { d with mot.tickDue := some d.clk.now } else d
  | none =>
    match d.mot.nextB with
    | none => d
    | some m =>
      if d.forwardMove && d.countAt m ≤ d.mot.mark then { d with mot := { d.mot with tickDue := some d.clk.now, nextB := some (m + 64), dues := d.mot.dues.drop 1 } }
      else d

/-- The excursion below the watermark (R303, R304). Travel that a record commands backward is no excursion. -/
def Dev.fallsBack (d : Dev) : Dev :=
  let j : Int := mTol d.curMedia
  let commanded := d.mot.travel != .rest && !d.mot.fwd
  if d.mot.mark - j ≤ d.mot.menc then { d with mot.excursion := false }
  else if d.mot.excursion || commanded then d
  else
    let d := { d with mot.excursion := true }
    if (d.line.band.map fun b => b.phase != .waiting).getD false || d.forwardMove then
      d.raise { code := cReverseMotion, sev := some .pause, lvl := .device, job := d.bandJob }
    else d.raise { code := cReverseMotion, sev := some .note, lvl := .device }

/-- Whether an axis entry of AX0 asks for jam detection where it applies (R331). -/
def Dev.jamOnAx0 (d : Dev) : Bool := eJamOn d.axes.a.entry && d.mot.cpl ≠ 0 && d.axes.a.energised

/-- AXIS_JAM of AX0: counts against commanded travel, once for each departure (R367). -/
def Dev.jamCheck (d : Dev) : Dev :=
  if !d.jamOnAx0 then d else
  let want := (d.axes.a.pos - d.mot.baseX) * (d.mot.cpl : Int) / max (d.mot.l0 : Int) 1
  let diff := (d.mot.menc - d.mot.lineBase) - want
  let lim := eJam d.axes.a.entry * d.mot.cpl / (8 * 65536)
  if diff.natAbs ≤ lim then { d with mot.jamOn := false }
  else if d.mot.jamOn then d
  else { d with mot.jamOn := true }.raise
    { code := cAxisJam, sub := 0, sev := some .pause, lvl := .device, job := d.bandJob, detail := d.motionDetail 0 0xFF diff lim d.nextLineTick }

/-- What a new media count brings. -/
def Dev.counted (d : Dev) (menc : Int) : Dev :=
  let d := { d with mot.menc := menc }
  let d := if d.mot.mark < menc then { d with mot.mark := menc }.markRises else d
  d.fallsBack.jamCheck

/-- ENCODER_COUNT. A formed secondary takes its counts from the primary (R588). -/
def encoderCount (up : Bool) (d : Dev) : Dev :=
  if !d.operating || d.pairSecondary then d else d.counted (if up then d.mot.menc + 1 else d.mot.menc - 1)

/-- The planned time of the boundary that the watermark awaits: a band's next tick, the next boundary of a moving record's
travel. -/
def Dev.awaited (d : Dev) : Option Ts :=
  match d.line.band with
  | some b => if b.phase == .firing && d.bandMoves then some d.line.planned else none
  | none => if d.forwardMove then d.mot.dues.head? else none

/-- TICK_STALLED: no encoder tick 100 ms after its planned time (R305). -/
def tickStalled (d : Dev) : Dev :=
  let late := (d.awaited.map fun t => atOrAfter d.clk.now (t + BitVec.ofNat 48 (100 * ms))).getD false
  if !d.operating || d.tickSource ≠ 1 || !late || d.mot.tickDue.isSome then d
  else d.raise { code := cTickStalled, sev := some .pause, lvl := .device, job := d.bandJob }

/-! ## Steps -/

/-- Velocity of the group in leader microsteps, or of AX3, in 1/16 microstep/s, at the last step. -/
def Dev.speedNow (d : Dev) (x : Fin 4) : Nat :=
  let a := if x = 3 then d.axes.d else d.axes.a
  match a.segs with
  | [] => 0
  | s :: _ =>
    let v := s.vel a.lastU
    if x = 3 then v else v * d.mot.ladder.lead / (65536 * max d.mot.l0 1)

/-- v_top of the table that moves an axis. -/
def Dev.topSpeed (d : Dev) (x : Fin 4) : Nat :=
  if x = 3 then ((rampSegs (d.secBody d.mot.table)).filter fun s => !s.decel).foldl (fun _ s => s.v1) 0 else d.mot.ladder.vTop

/-- Index of a winding in 1/256, 256 before its first measurement (R557). -/
def Dev.windIndex (d : Dev) (x : Fin 4) (b : Bool) : Nat :=
  let v := d.led (0x1C0 + 32 * x.val + (if b then 6 else 2)) 2
  if v = 0 then 256 else v

/-- stall_duty as used (R558). -/
def Dev.stallDuty (d : Dev) (x : Fin 4) : Nat :=
  min (eStall (d.axes.get x).entry * min (d.windIndex x false) (d.windIndex x true) / 256) 127

/-- Time that a winding has spent in on phases since the axis's last full step, the phase under way with them, in 10 ns. -/
def Dev.onSince (d : Dev) (a : Axis) (b : Bool) : Nat :=
  let w := a.wind b
  w.stepOn + (if w.on then 4 * min (since d.clk.now w.phaseTs) (since d.clk.now a.fullTs) else 0)

/-- The share of time that both windings spent in on phases since the last full step, in 1/128 (R366; log entry 135). -/
def Dev.onShareOf (d : Dev) (x : Fin 4) : Nat :=
  let a := d.axes.get x
  128 * (d.onSince a false + d.onSince a true) / (2 * max (4 * since d.clk.now a.fullTs) 1)

/-- A full step of an axis (R366). -/
def Dev.fullStep (d : Dev) (x : Fin 4) : Dev :=
  let share := d.onShareOf x
  let d := (d.onAxis x fun a => { a with sinceFull := 0, fullSteps := a.fullSteps + 1, fullTs := d.clk.now
                                         a := { a.a with stepOn := 0 }, b := { a.b with stepOn := 0 } }).ledAdd (0x1C0 + 32 * x.val + 8) 6 1
  let a := d.axes.get x
  if !eStallOn a.entry || d.pers.axisCfg.get x ≠ 1 then d else
  let duty := d.stallDuty x
  if a.fullSteps < 16 || d.speedNow x * 4 < d.topSpeed x || duty ≤ share then d.onAxis x fun a => { a with low := 0 }
  else if a.low + 1 < 4 then d.onAxis x fun a => { a with low := a.low + 1 }
  else (d.onAxis x fun a => { a with low := 0 }).raise
    { code := cAxisStall, sub := x.val, sev := some .pause, lvl := .device, job := d.bandJob, detail := d.motionDetail x.val 0xFF share duty d.nextLineTick }

/-- One microstep of an axis in a direction (R357). A member's AX0 that is not energised only follows the master's travel
(R579). -/
def Dev.microstep (d : Dev) (x : Fin 4) (fwd : Bool) : Dev :=
  let d := d.onAxis x fun a => { a.move1 fwd with sinceFull := a.sinceFull + 1, readyTs := none }
  let a := d.axes.get x
  if a.energised && 2 ^ a.ustep ≤ a.sinceFull then d.fullStep x else d

/-- Time of the next step of the segment under way, from its start (R339). -/
def Axis.nextU (a : Axis) (s : Seg) : Nat := s.stepAt a.lastU (a.done + 1)

/-- The next step of the segment under way of AX0 or AX3 (R339). -/
def Dev.segStep (d : Dev) (x : Fin 4) (s : Seg) : Dev :=
  let d := d.onAxis x fun a => { a with done := a.done + 1, lastU := a.nextU s }
  d.microstep x s.fwd

/-- The computed time of the next step has come (R339). -/
def Dev.stepDue (d : Dev) (a : Axis) (s : Seg) : Bool := d.come (a.segTs + BitVec.ofNat 50 (a.nextU s))

/-- AX0 has reached the end of a segment: a line boundary raises its tick, and one more line is planned (R295, R296,
R343). -/
def Dev.lineTravelled (d : Dev) (s : Seg) : Dev :=
  let d := d.onAxis 0 (Axis.nextSegs 1)
  -- a member's axes rest with the master's
  let d := if d.isMember && d.axes.a.segs.isEmpty && s.vEnd = 0 then ((d.restAxis 0).restAxis 1).restAxis 2 else d
  match d.line.band with
  | some b =>
    let d :=
      if d.tickSource ≠ 1 && d.bandMoves && d.raisesTick b && d.axes.a.pos = d.axOf (b.bound b.next) then { d with mot.tickDue := some d.line.planned } else d
    if d.mot.travel == .planned then d.leadStep else d.refill 1
  | none =>
    let d := if d.tickSource ≠ 1 && s.tick then { d with mot := { d.mot with tickDue := d.mot.dues.head?.or (some d.clk.now), dues := d.mot.dues.drop 1 } } else d
    d.refill 1

/-- Target of a ribbon axis now (R341). -/
def Dev.ribbonGoal (d : Dev) (x : Fin 4) : Int := d.traceNow * eRatioS (d.axes.get x).entry / 2 ^ 32

/-- AX0's next step. -/
def Dev.step0 (d : Dev) (s : Seg) : Dev :=
  let d := (d.segStep 0 s).jamCheck
  if s.dpos ≤ d.axes.a.done then d.lineTravelled s else d

/-- AX3's next step; the segments it has finished are left behind. -/
def Dev.step3 (d : Dev) (s : Seg) : Dev :=
  let d := (d.segStep 3 s).onAxis 3 (Axis.nextSegs 200)
  if d.axes.d.segs.isEmpty then d.auxArrived.afterCut d else d

/-- MOTOR_STEP: an axis makes its next microstep once its time has come. A line from rest holds its first step until its tick
(R299); the first step after an energising comes 2 ms after it (R363). -/
def motorStep (x : Fin 4) (d : Dev) : Dev :=
  if !d.operating then d else
  let a := d.axes.get x
  let early := (a.readyTs.map fun t => !atOrAfter d.clk.now t).getD false
  if early then d else
  let waits := d.tickSource ≠ 1 && (d.line.band.map fun b => b.fromRest).getD false
  match x with
  | 0 =>
    match a.segs with
    | [] => d
    | s :: _ => if waits || !d.stepDue a s then d else d.step0 s
  | 3 =>
    match a.segs with
    | [] => d
    | s :: _ => if d.stepDue a s then d.step3 s else d
  | _ =>
    let goal := d.ribbonGoal x
    if !a.energised || !engaged a.entry || goal = a.pos then d else d.microstep x (decide (a.pos < goal))

/-! ## Release and overcurrent -/

/-- Whether the media group may not be released: a band that moves it is not completed, or a return is pending
(R362). -/
def Dev.groupHeld (d : Dev) : Bool :=
  d.mot.travel != .rest || (match d.line.band with | some b => b.phase != .waiting && d.bandMoves | none => false) ||
    (match d.media.move with | some m => m.paused | none => false)

/-- AXIS_RELEASE after release_time of rest (R361, R362). -/
def axisRelease (x : Fin 4) (d : Dev) : Dev :=
  let a := d.axes.get x
  if !d.operating || !a.energised || a.moving || !a.segs.isEmpty || eRelease a.entry = 65535 || !d.past a.restTs (eRelease a.entry * ms) ||
    (x ≠ 3 && d.groupHeld) then d
  else d.onAxis x fun a => { a with energised := false, released := true, a := { a.a with on := false }, b := { a.b with on := false } }

/-- AXIS_OVERCURRENT: every gate of the axis goes off until the reaction ends (R364). -/
def axisOvercurrent (x : Fin 4) (b : Bool) (mv : BitVec 16) (d : Dev) : Dev :=
  if !d.alive || (d.axes.get x).held || d.justOn x b then d else
  let d := d.onAxis x fun a => { a with held := true, a := { a.a with on := false }, b := { a.b with on := false } }
  let d := d.shadow .gates none (some (500 * ms))
  d.raise { code := cAxisOvercurrent, sub := x.val, sev := some .stopDevice, lvl := .device, job := d.bandJob
            detail := d.motionDetail x.val (b2n b) mv.toNat (d.motorVfs * 3 / 2) d.nextLineTick }

/-! ## AX3 as a DC axis (R356, R367) -/

/-- A new AENC count: at the target both low-side switches go on for 20 ms. -/
def Dev.auxCounted (d : Dev) (n : Int) : Dev :=
  let d := { d with mot := { d.mot with aenc := n, auxCounts := (d.clk.now :: d.mot.auxCounts).filter fun t => !d.past t (50 * ms) } }
  match d.mot.auxTarget with
  | some t =>
    if d.auxDc && !d.mot.auxBrake && (if d.axes.d.fwd then t ≤ n else n ≤ t) then
      { d with mot.auxBrake := true }.onAxis 3 fun a => { a with restTs := d.clk.now }
    else d
  | none => d

/-- AENC_COUNT. -/
def aencCount (up : Bool) (d : Dev) : Dev :=
  if !d.operating || d.pairSecondary then d else d.auxCounted (if up then d.mot.aenc + 1 else d.mot.aenc - 1)

/-- DC_BRAKE_END: the 20 ms are over, hold_level follows. -/
def dcBrakeEnd (d : Dev) : Dev :=
  if !d.operating || !d.mot.auxBrake || !d.past d.axes.d.restTs (20 * ms) then d
  else ({ d with mot := { d.mot with auxBrake := false, auxTarget := none } }.auxArrived).afterCut d

/-- DC_JAM_CHECK: fewer than jam_limit x 16 counts in the past 50 ms of drive (R367). -/
def dcJamCheck (d : Dev) : Dev :=
  let e := d.axes.d.entry
  if !d.operating || !d.auxDc || d.mot.auxTarget.isNone || d.mot.auxBrake || !d.past d.mot.auxTs (50 * ms) then d else
  let n := (d.mot.auxCounts.filter fun t => !d.past t (50 * ms)).length
  if !eJamOn e || eJam e * 16 ≤ n then d else
  { d with mot.auxTs := d.clk.now }.raise
    { code := cAxisJam, sub := 3, sev := some .pause, lvl := .device, job := d.bandJob
      detail := d.motionDetail 3 0xFF ((n : Int) - (eJam e * 16 : Nat)) (eJam e * 16) d.nextLineTick }

/-! ## The commands -/

/-- ENCODER_COUNT. -/
def execEncoderCount (up : Bool) (s : State) : Host.Outcome State Fault Refusal :=
  .next { s with dev := (encoderCount up s.dev).finish }
/-- TICK_STALLED. -/
def execTickStalled (s : State) : Host.Outcome State Fault Refusal := .next { s with dev := (tickStalled s.dev).finish }
/-- MOTOR_STEP. -/
def execMotorStep (ax : Fin 4) (s : State) : Host.Outcome State Fault Refusal :=
  .next { s with dev := (motorStep ax s.dev).finish }
/-- AXIS_RELEASE. -/
def execAxisRelease (ax : Fin 4) (s : State) : Host.Outcome State Fault Refusal :=
  .next { s with dev := (axisRelease ax s.dev).finish }
/-- AXIS_OVERCURRENT. -/
def execAxisOvercurrent (ax : Fin 4) (b : Bool) (mv : BitVec 16) (s : State) : Host.Outcome State Fault Refusal :=
  .next { s with dev := (axisOvercurrent ax b mv s.dev).finish }
/-- AENC_COUNT. -/
def execAencCount (up : Bool) (s : State) : Host.Outcome State Fault Refusal :=
  .next { s with dev := (aencCount up s.dev).finish }
/-- DC_BRAKE_END. -/
def execDcBrakeEnd (s : State) : Host.Outcome State Fault Refusal := .next { s with dev := (dcBrakeEnd s.dev).finish }
/-- DC_JAM_CHECK. -/
def execDcJamCheck (s : State) : Host.Outcome State Fault Refusal := .next { s with dev := (dcJamCheck s.dev).finish }

end Sys2Proof.Machine
end

