-- ==== Sys2Proof/Machine/Sensing.lean ====
section
/-! DEFINITION. The media at rest, yanks, sensor rounds, the cover, paper-out and the cutter's jam (R302, R315, R348,
R382, R384, R387 to R390, R402, R404). -/

namespace Sys2Proof.Machine

/-! ## The media comes to rest -/

/-- A FEED, BACKFEED, SEEK_MARK or LEARN_MEDIA has reached its goal (R150, R348, R381, R396). -/
def Dev.endMove (d : Dev) (m : Move) (a : Adm) : Dev :=
  let d := { d with media.move := none }
  let res (d : Dev) (extra : Int) : List Byte := motionResult (d.mot.bound - m.startPos) d.mot.bound d.mot.overshoot extra
  match rType a.raw with
  | 0x22 =>
    match m.found with
    | some e => d.close m.seq { result := res d e }
    | none => d.close m.seq { code := cMarkNotFound, own := true, result := res d (-2147483648) }
  | 0x60 =>
    let (d, failed) := d.endLearn a
    d.close m.seq { code := if failed then cLearnWeak else 0, own := failed, result := res d (d.secRev (16 + lSec a.raw)) }
  | _ => d.close m.seq { result := res d 0 }

/-- The moving record at rest without a goal left to approach: abandoned, complete, stopped on its way, or at the next
step of its CUT (R402, R405). -/
def Dev.moverRests (d : Dev) : Dev :=
  match d.mot.stopAbandon with
  | some (code, ref, lvl) =>
    let d := { d with mot.stopAbandon := none }
    let result := match d.media.move, d.media.cut with | some m, _ => d.moveResult m | none, some c => d.cutResult c | _, _ => []
    match d.mover with
    | none => d
    | some q =>
      { d with media := { d.media with move := none, cut := none } }.close q
        { res := .abandoned, lvl := lvl, origin := d.originOf lvl, code := code, ref := ref, result := result }
  | none =>
    match d.media.move, d.media.cut with
    | some m, _ =>
      if m.paused then d else
      match d.adm m.seq with
      | some a => d.endMove m a
      | none => { d with media.move := none }
    | none, some c =>
      if c.goal.isSome && c.goal ≠ some d.mot.bound then { d with media.cut := some { c with waiting := true } }
      else match c.step with
        | .advance => d.cutStroke { c with goal := none }
        | .backfeed => d.cutDone c
        | _ => d
    | none, none => d

/-- The band in progress at rest. -/
def Dev.bandRests (d : Dev) : Dev :=
  match d.line.band with
  | none => d
  | some b =>
    if b.phase == .stopping then { d with line.band := some { b with phase := .resting } }
    else if b.phase == .firing && b.next < b.lines &&
        (b.restsAt b.next || b.abandonAt.isSome || (b.next = 0 && (b.restAfter.map fun r => decide (r < 0)).getD false)) then d.restBand d.line.planned
    else d

/-- Final rest: hold levels at once, the watermark after backward travel, the shadow of the stop (R302, R361, R543). -/
def Dev.restGroup (d : Dev) : Dev :=
  let d := ((d.restAxis 0).restAxis 1).restAxis 2
  let d := if d.mot.fwd then d else d.setMark
  { d with mot := { d.mot with travel := .rest, returnTo := none, superseded := none, target := none, nextB := none, dues := [], stopFrom := (0, 0) } }.closeShadow .media (50 * ms)

/-- MEDIA_REST: at the end of a deceleration the group turns back to the target it overran (R351) or to the boundary it
stopped for (R315); otherwise it stays at rest. -/
def mediaRest (d : Dev) : Dev :=
  let g := d.mot
  if !d.operating || g.travel == .rest || !d.axes.a.segs.isEmpty || g.per ≠ 0 || g.tickDue.isSome then d else
  match (if g.travel == .stopping then g.superseded else none), (if g.travel == .stopping then g.returnTo else none) with
  | some t, _ => ({ d with mot.overshoot := (d.axOf g.bound - d.axOf t).natAbs }.setMark).startReturn t
  | none, back =>
    match back with
    | some t => if t ≠ g.bound then (d.setMark).startReturn t else (d.restGroup.bandRests.moverRests).closeQuiet
    | none =>
      let d := (d.restGroup.bandRests.moverRests).closeQuiet
      if d.mover.isNone && (d.line.band.map fun (b : BandRt) => decide (b.lines ≤ b.next)).getD true then d.compensateAll else d

/-! ## Yanks (R387 to R390) -/

/-- The watermark and a new base after a yank (R390). -/
def Dev.newBase (d : Dev) : Dev :=
  let p := d.mediaPos
  { d with mot := { d.mot with baseM := p, baseX := d.axes.a.pos, lineBase := d.mot.menc, encHist := [], cmdHist := [] } }.setMark

/-- A yank of value, the signed difference in 1/64 line. -/
def Dev.yanked (d : Dev) (value : Int) : Dev :=
  let detail := d.senseDetail 0xFF 0 0 d.nextLineTick value
  let busy := (d.line.band.map fun b => b.phase != .waiting).getD false || d.mover.isSome
  let d :=
    if busy then
      d.raise { code := cMediaYank, sev := some .pause, lvl := .device, job := d.bandJob, detail := detail }
    else d.raise { code := cMediaYank, sev := some .note, lvl := .device, detail := detail }
  d.newBase

/-- YANK_CHECK: the travel of the past 4 ms by MENC against the travel commanded. -/
def yankCheck (d : Dev) : Dev :=
  let m := d.curMedia
  if !d.awake || d.pairSecondary || mCpl m = 0 || mYank m = 0 then { d with mot := { d.mot with encHist := [], cmdHist := [] } } else
  -- the checks follow one another every 1 ms; after a gap the 4 ms are counted anew
  let gap := d.past d.mot.yankTs (2 * ms)
  let enc := if gap then [d.mot.menc] else (d.mot.menc :: d.mot.encHist).take 5
  let cmd := if gap then [d.axes.a.pos] else (d.axes.a.pos :: d.mot.cmdHist).take 5
  let d := { d with mot := { d.mot with encHist := enc, cmdHist := cmd, yankTs := d.clk.now } }
  match enc[4]?, cmd[4]? with
  | some e, some c =>
    let moved := ((d.mot.menc - e) * 4194304).tdiv (mCpl m : Int)
    let meant := ((d.axes.a.pos - c) * 4194304).tdiv (max d.mot.l0 1 : Nat)
    if (mYank m : Int) ≤ (moved - meant).natAbs then d.yanked (moved - meant) else d
  | _, _ => d

/-! ## Sensor rounds (R375, R376) -/

/-- SENSOR_ROUND, at a multiple of 250 units. A round that overlaps a tick or start sample sequence is not taken; the secondary of
a formed pair takes its samples from the link. -/
def sensorRound (set : Oct Adc) (d : Dev) : Dev :=
  if !d.awake || d.pairSecondary || d.clk.now.toNat % 250 ≠ 0 then d else
  let taken := !d.roundOverlaps
  let codes := if taken then set.toList.map (·.toNat) else List.replicate 8 0
  let d := if taken then d.senseRound (d.roundAt d.clk.now) set else d
  d.sendTick 2 0 d.clk.now 0 0
    (pack12 codes ++ pack12 (d.solx.adcb.map (·.toNat) ++ List.replicate (9 - d.solx.adcb.length) 0) ++ sBytes 4 d.mot.menc ++ sBytes 4 d.mot.aenc)

/-- PAPER_OUT_CLEAR: every paper-out channel has read MEDIA for 500 ms while COVER is inactive (R382). -/
def paperOutClear (d : Dev) : Dev :=
  let m := d.curMedia
  let clear (c : Fin 8) : Bool := mRole m c.val ≠ 4 || (match (d.sense.get c).mediaTs with | some t => d.past t (500 * ms) | none => false)
  if !d.operating || !d.media.paperOut || d.media.cover || !(fin8.all clear) then d
  else { d with media.paperOut := false }.endCond cPaperOut 0

/-! ## The cover (R384, R532) -/

/-- COVER_OPEN: COVER has had a level for ns. Past the filter of cover_input it counts, and at the active level the cover is open.
In Doze only the kill inputs act; the cover is evaluated on waking. -/
def coverOpen (high : Bool) (ns : BitVec 16) (d : Dev) : Dev :=
  if !d.alive || ns.toNat < filterNs (mCover d.curMedia) then d else
  let d := { d with media.coverPin := high }
  if !d.coverActive then d else
  let d := { d with media.cover := true }
  if d.awake then d.coverRaise else d.kill (fin4.filter d.portOn) cCoverOpen 0

/-- COVER_CLEAR: COVER has had a level for 500 ms; the inactive one ends the condition. -/
def coverClear (high : Bool) (d : Dev) : Dev :=
  if !d.alive then d else
  let d := { d with media.coverPin := high }
  if !d.media.cover || d.coverActive then d
  else ({ d with media.cover := false }.unkill fin4 cCoverOpen).endCond cCoverOpen 0

/-! ## The cutter (R404) -/

/-- Whether the CUT's cutter is away from home too long, or its homing travel has ended without a home. -/
def Dev.cutLate (d : Dev) (c : CutRt) : Bool :=
  let away := c.step == .homing || c.step == .back || (c.step == .stroke && !c.waiting && (match d.run c.seq with | some r => r.begun | none => true))
  let done := c.step == .homing && d.axes.d.segs.isEmpty && d.mot.auxTarget.isNone
  away && (done || d.past c.strokeTs (cutField d.curMedia 2 2 * ms))

/-- CUTTER_JAM: the CUT is abandoned by the reaction; AX3 and the solenoid channel are held off. -/
def cutterJam (d : Dev) : Dev :=
  match d.media.cut with
  | none => d
  | some c =>
    if !d.operating || !d.cutLate c then d else
    let t := cutField d.curMedia 2 2
    let ch := d.homeChan.getD 0xFF
    let before := d
    let d := match d.run c.seq with | some r => d.releaseRun r.ch | none => d.stopAux
    let d := d.onAxis 3 fun a => { a with held := true, segs := [] }
    let (e, r) := if ch < 8 then (mEmit d.curMedia ch, (d.sense.get (fin8Of ch)).lastR) else (0, 0)
    let d := d.raise { code := cCutterJam, sev := some .stopDevice, lvl := .device,
                       job := (d.adm c.seq).bind fun a => rJob a.raw, detail := d.senseDetail ch e r d.nextLineTick t }
    d.afterCut before

/-! ## The commands -/

/-- MEDIA_REST. -/
def execMediaRest (s : State) : Host.Outcome State Fault Refusal := .next { s with dev := (mediaRest s.dev).finish }
/-- YANK_CHECK. -/
def execYankCheck (s : State) : Host.Outcome State Fault Refusal := .next { s with dev := (yankCheck s.dev).finish }
/-- SENSOR_ROUND. -/
def execSensorRound (set : Oct Adc) (s : State) : Host.Outcome State Fault Refusal :=
  .next { s with dev := (sensorRound set s.dev).finish }
/-- PAPER_OUT_CLEAR. -/
def execPaperOutClear (s : State) : Host.Outcome State Fault Refusal := .next { s with dev := (paperOutClear s.dev).finish }
/-- COVER_OPEN. -/
def execCoverOpen (high : Bool) (ns : BitVec 16) (s : State) : Host.Outcome State Fault Refusal :=
  .next { s with dev := (coverOpen high ns s.dev).finish }
/-- COVER_CLEAR. -/
def execCoverClear (high : Bool) (s : State) : Host.Outcome State Fault Refusal := .next { s with dev := (coverClear high s.dev).finish }
/-- LEARN_RANGE_END. -/
def execLearnRangeEnd (s : State) : Host.Outcome State Fault Refusal := .next { s with dev := (learnRangeEnd s.dev).finish }
/-- CUTTER_JAM. -/
def execCutterJam (s : State) : Host.Outcome State Fault Refusal := .next { s with dev := (cutterJam s.dev).finish }

end Sys2Proof.Machine
end

