-- ==== Sys2Proof/Machine/Solenoids.lean ====
section
/-! DEFINITION. The solenoid channels and the choppers: pulses from start to off, seat detection, the coil models, the
diagnosis of coils and windings (R357 to R360, R365, R409 to R439, R557 to R559). -/

namespace Sys2Proof.Machine

/-! ## When a pulse begins, and when it is too late (R417, R425 to R429) -/

/-- PULSE_START: the next pulse of a run whose conditions hold. The stroke of a CUT begins with its pulse. -/
def pulseStart (seq : W32) (d : Dev) : Dev :=
  match d.run seq with
  | none => d
  | some r =>
    let late := !r.begun && (match r.deadline with | some t => d.clk.now != t && atOrAfter d.clk.now t | none => false)
    if !d.awake || late || !d.mayPulse r then d else
    let d := match d.media.cut with
      | some c => if c.seq = seq then { d with media.cut := some { c with strokeTs := d.clk.now } } else d
      | none => d
    (d.startPulse r).onRun seq fun r => { r with void := false }

/-- SOLENOID_DEADLINE: pulse 0 has not begun at the deadline (R427). -/
def solenoidDeadline (seq : W32) (d : Dev) : Dev :=
  match d.run seq with
  | none => d
  | some r =>
    match r.deadline with
    | none => d
    | some t =>
      if !d.operating || r.begun || !atOrAfter d.clk.now t || (d.clk.now == t && d.mayPulse r) then d else
      { d with solx := { d.solx with runs := d.solx.runs.filter fun x => x.seq ≠ seq } }.refuse seq
        (if r.waitCode = 0 then cDeadlinePassed else r.waitCode) r.waitRef

/-! ## Short circuits (R434 to R438) -/

/-- sol_peak_cap / 16 in 0.1 mV. -/
def Dev.capSixteenth (d : Dev) : Nat := 10 * d.solCap / 16

/-- Every run on a pair. -/
def Dev.pairRuns (d : Dev) (k : Fin 4) : List SolRun := d.solx.runs.filter fun r => pairOf r.ch == k

/-- A pulse cut short does not count, and its record ends after it (R439). -/
def Dev.cutPulse (d : Dev) (r : SolRun) (code : W16) (ref : W32) : Dev :=
  if !r.begun then d else
  let busy := (d.sol.get r.ch).pulsing
  d.onRun r.seq fun r => { r with void := r.void || busy, stop := some (r.stop.getD (code, ref, .device)) }

/-- The other channel of a pair whose channel was released early (R543). -/
def Dev.shadowMate (d : Dev) (c : Fin 8) : Dev := d.shadow .release (some (mateOf c).val) (some (2 * ms))

/-- A short circuit at channel c: both channels of the pair are released, the pair is fenced (R438, R439). -/
def Dev.shorted (d : Dev) (c : Fin 8) (code : W16) (value limit : Nat) : Dev :=
  let k := pairOf c
  let detail := d.solDetail c.val k.val value limit
  let job := (d.runOn c).bind fun r => (d.adm r.seq).bind fun a => rJob a.raw
  let ref := d.nextRef code c.val
  let d := (d.pairRuns k).foldl (fun d r => d.cutPulse r code ref) d
  let early := (d.sol.get c).pulsing
  let d := (d.release1 c).release1 (mateOf c)
  let d := if early then d.shadowMate c else d
  let d := { d with solx := { d.solx with fenced := d.solx.fenced.set k true } }.stageLevels
  d.raise { code := code, sub := c.val, sev := some .stopDevice, lvl := .device, job := job, detail := detail }

/-- COIL_SHORT_SUPPLY: the comparator of R434 trips; it is ignored for 200 ns after SCn_G has risen. -/
def shortSupply (c : Fin 8) (reading : Nat) (d : Dev) : Dev :=
  if (d.sol.get c).gate && !d.past (d.sol.get c).gateTs 5 then d else
  let two := match d.runOn c with | some r => r.paired | none => false
  if !d.alive || d.noSolenoids || d.solx.fenced.get (pairOf c) then d
  else d.shorted c cCoilShortSupply reading (if two then 30 * d.solCap / 4 else 15 * d.solCap)

/-- COIL_IDLE_TEST, at a multiple of 2,500,000 units: every channel of no record whose high side has been off for 1 ms is tested
for 20 µs, one after the other. A pulse waits for the end of its channel's test (R435). -/
def idleTest (rd : Oct Adc) (d : Dev) : Dev :=
  if !d.awake || d.noSolenoids || d.clk.now.toNat % 2500000 ≠ 0 then d else
  let free (c : Fin 8) : Bool :=
    (d.sol.get c).owner.isNone && !d.solx.hs.get (pairOf c) && d.past (d.solx.hsTs.get (pairOf c)) (1 * ms) && !d.solx.fenced.get (pairOf c)
  ((fin8.filter free).zipIdx).foldl (init := d) fun (d : Dev) x =>
    let d := d.onSol x.1 fun s => { s with testTo := some (d.at_ (20 * us * (x.2 + 1))) }
    let v := shuntOf (rd.get x.1).toNat
    if !d.solx.fenced.get (pairOf x.1) && d.capSixteenth ≤ v then d.shorted x.1 cCoilShortSupply v d.capSixteenth else d

/-! ## Samples (R409, R410, R416, R421, R430, R436) -/

/-- The clamp level V_cl in 10 mV (R410). -/
def Dev.clampLevel (d : Dev) : Nat := if d.boostLimit = 0 then 4000 else d.boostLimit * 10

/-- The dump switch follows VBST (R410, R412). -/
def Dev.clamp (d : Dev) : Dev :=
  if d.noSolenoids then d
  else if d.clampLevel ≤ d.solx.vbst then { d with solx := { d.solx with dump := true } }
  else if d.solx.vbst ≤ d.clampLevel - 200 then { d with solx := { d.solx with dump := false, overvolt := false } }.stageLevels
  else d

/-- Sense voltage of a run, in 0.1 mV: the sum for a paralleled pair (R424). -/
def Dev.runSense (d : Dev) (r : SolRun) : Nat := r.chans.foldl (fun n c => n + shuntOf (d.solx.adcb.getD c.val 0).toNat) 0

/-- DAC code of a level of a run (R413, R424). -/
def SolRun.dac (r : SolRun) (level : Nat) : Nat := level * 2 / (if r.paired then 10 else 5)

/-- One sample i of a rise (R421): regulation begins at the peak code, else the kink is looked for. -/
def Sol.riseSample (s : Sol) (i peak code chans : Nat) (now : Ts) : Sol :=
  let s := { s with strong := s.strong || decide (peak ≤ 8 * i) }
  if 5 * chans * code ≤ 2 * i then { s with regulating := true, regTs := now, winOn := 0, windows := 0, sMax := 0, lowTs := none }
  else if s.seated.isSome then s
  else
    let d := peak / 16
    let s := { s with m := max s.m i }
    let s := if !s.armed && i + d ≤ s.m then { s with armed := true, lo := i, loTs := now } else s
    if !s.armed then s
    else
      let s := if i < s.lo then { s with lo := i, loTs := now } else s
      if s.lo + d ≤ i then { s with seated := some s.loTs, seatSeen := now } else s

/-- What one sample means for the coil model of a channel: the level regulated, the sample during a rise, 0 without a
pulse; the first channel of a pair takes the total (R430). -/
def Dev.coilValue (d : Dev) (c : Fin 8) : Nat :=
  match d.runOn c with
  | none => 0
  | some r =>
    if r.ch ≠ c then 0 else
    match (d.sol.get c).phase with
    | .peak => if (d.sol.get c).regulating then r.peak else d.runSense r
    | .hold => r.hold
    | _ => 0

/-- The sample of one channel; before is its conversion of the round before. -/
def Dev.coilSample (d : Dev) (c : Fin 8) (before : Adc) : Dev :=
  let now := d.clk.now
  let v := shuntOf (d.solx.adcb.getD c.val 0).toNat
  let lim := d.capSixteenth
  let d := match d.runOn c with
    | some r =>
      if r.ch = c && (d.sol.get c).phase == Pulse.peak && !(d.sol.get c).regulating then
        d.onSol c fun s => s.riseSample (d.runSense r) r.peak (r.dac r.peak) r.chans.length now
      else d
    | none => d
  let x := d.coilValue c
  let d := d.onSol c fun s => { s with
    acc := s.acc + x, accN := s.accN + 1
    belowTs := if s.phase == Pulse.released && (lim ≤ v || lim ≤ shuntOf before.toNat) then some now else s.belowTs }
  -- R436
  let s := d.sol.get c
  let watched := d.solx.hs.get (pairOf c) && !s.gate && d.past s.gateTs (5 * us)
  if !(watched && lim ≤ v) then d.onSol c fun s => { s with gnd := false }
  else if s.gnd then (d.onSol c fun s => { s with gnd := false }).shorted c cCoilShortGnd v lim
  else d.onSol c fun s => { s with gnd := true }

/-- What a round of ADC-B brings (R409): the chip's own, or the primary's that a TICK frame carries (R440). -/
def Dev.adcbRound (d : Dev) (sc : List Adc) (vbst : Adc) : Dev :=
  let old := d.solx.adcb
  let d := { d with solx := { d.solx with adcb := sc ++ [vbst], vbst := vbstOf vbst.toNat } }.clamp
  if d.noSolenoids then d else fin8.foldl (fun d c => d.coilSample c (old.getD c.val 0)) d

/-- ADCB_SAMPLE. -/
def adcbSample (sc : Oct Adc) (vbst : Adc) (d : Dev) : Dev :=
  if !d.awake || d.pairSecondary then d else d.adcbRound sc.toList vbst

/-- On share of the window that has ended, in 1/128: the on phases that ended in it, and the part of the one under way
(R422). -/
def Sol.share (s : Sol) (now : Ts) : Nat :=
  let part := if !s.gate then 0 else min (min 20000 (4 * since now s.gateTs)) (4 * since now s.winTs)
  min 128 ((s.winOn + part) * 128 / 20000)

/-- ON_SHARE_WINDOW: a window of 200 µs is over; seating shows in the chopper's on share (R422). -/
def onShare (c : Fin 8) (d : Dev) : Dev :=
  let s := d.sol.get c
  if !d.awake || s.phase != .peak || !s.regulating || s.seated.isSome || !d.past s.winTs (200 * us) then d else
  let n := s.windows + 1
  let share := s.share d.clk.now
  let top := max s.sMax share
  let start := s.winTs
  let d := d.onSol c fun s => { s with winOn := 0 }
  let low := decide (share ≤ 3 * top / 4)
  d.onSol c fun s =>
    if n < 2 then { s with windows := n }
    else match low, s.lowTs with
      | true, some t => { s with windows := n, sMax := top, seated := some t, seatSeen := d.clk.now }
      | true, none => { s with windows := n, sMax := top, lowTs := some start }
      | false, _ => { s with windows := n, sMax := top, lowTs := none }

/-! ## The phases end (R415, R416) -/

/-- PEAK_END: 1.0 ms after the seating, not before the sample that showed it, or at peak_time_max. -/
def peakEnd (c : Fin 8) (d : Dev) : Dev :=
  match d.runOn c with
  | none => d
  | some r =>
    let s := d.sol.get r.ch
    let timed := d.past s.phaseTs (r.peakMax * hundred)
    let seated := match s.seated with | some t => d.past t (1 * ms) && atOrAfter d.clk.now s.seatSeen | none => false
    if !d.operating || s.phase != .peak || !(timed || seated) then d else
    let d := d.endPeak r
    if (d.sol.get r.ch).phase == .released then (d.cutReleased r.seq).afterCut d else d

/-- HOLD_END: hold_time is over. -/
def holdEnd (c : Fin 8) (d : Dev) : Dev :=
  match d.runOn c with
  | none => d
  | some r =>
    let s := d.sol.get r.ch
    if !d.operating || s.phase != .hold || !d.past s.phaseTs (r.holdTime * hundred) then d else
    let d := d.releaseRun r.ch
    (d.cutReleased r.seq).afterCut d

/-- CHANNEL_OFF: a pulse is off; the record completes, ends, or waits for its next pulse (R150, R416, R417, R439). -/
def channelOff (c : Fin 8) (d : Dev) : Dev :=
  match d.runOn c with
  | none => d
  | some r =>
    let still (c : Fin 8) : Bool :=
      let s := d.sol.get c
      s.phase == .released && d.past s.relTs (100 * us) && (match s.belowTs with | some t => d.past t (100 * us) | none => true)
    if !d.operating || !(r.chans.all still) then d else
    let done := r.done + b2n (!r.void)
    let d := d.onRun r.seq fun r => { r with done := done, index := r.index + 1, void := false }
    let r := { r with done := done, index := r.index + 1, void := false }
    let cut := (d.media.cut.map fun c => c.seq == r.seq).getD false
    match r.stop with
    | some (code, ref, lvl) =>
      if cut then ((d.freeRun r).abandonCut code ref lvl).afterCut d
      else d.endRun r { res := .abandoned, lvl := lvl, origin := d.originOf lvl, code := code, ref := ref }
    | none =>
      if cut then d.freeRun r
      else if r.count ≤ r.index then d.endRun r { code := d.trimReason r.seq }
      else d.each8 r.chans fun c d => d.onSol c fun s => { s with phase := .idle }

/-! ## The coil models (R430 to R432, R559) -/

/-- Index of a coil in 1/256, bounded to 192 to 512 (R559). -/
def Dev.coilIndex (d : Dev) (c : Fin 8) : Nat :=
  let v := d.led (0x240 + 16 * c.val + 2) 2
  if v = 0 then 256 else min 512 (max 192 v)

/-- A millisecond of a channel's model. -/
def Dev.coilStep (d : Dev) (c : Fin 8) : Dev :=
  let idx := d.coilIndex c
  d.onSol c fun s =>
    let x := min 511 (s.acc * 256 / (max s.accN 1 * max (10 * d.solCap) 1))
    let target : Int := ((1920 * x * x * idx / 2 ^ 24) * 65536 : Nat)
    { s with th := s.th + (target - s.th) / 65536, acc := 0, accN := 0 }

/-- COIL_HOT: the channel is released at once, the pulse counts, the record carries TRIMMED (R432). -/
def Dev.coilHot (d : Dev) (c : Fin 8) : Dev :=
  match d.runOn c with
  | none => d
  | some r =>
    if r.ch ≠ c || !(d.sol.get c).pulsing || (d.sol.get c).theta < 1280 then d else
    let detail := d.solDetail c.val (pairOf c).val (d.sol.get c).theta 1280
    let d := (d.releaseRun c).shadowMate c
    let d := d.onAdm r.seq fun a => { a with trimmed := true, trimCode := cCoilHot }
    let d := (d.onSol c fun s => { s with hotPosted := true }).raise
      { code := cCoilHot, sub := c.val, sev := some .derate, lvl := .device, job := (d.adm r.seq).bind fun a => rJob a.raw, detail := detail }
    (d.cutReleased r.seq).afterCut d

/-- COIL_MODEL_UPDATE: every channel, each millisecond, in Doze too (R430, R527). -/
def coilModels (d : Dev) : Dev :=
  if !d.operating then d else
  fin8.foldl (init := d) fun (d : Dev) (c : Fin 8) =>
    let d := (d.coilStep c).coilHot c
    let s := d.sol.get c
    if s.hotPosted && s.theta ≤ 960 then (d.onSol c fun s => { s with hotPosted := false }).endCond cCoilHot c.val else d

/-! ## Open coils and the over-voltage (R412, R437) -/

/-- COIL_OPEN: no sample reached peak_level / 8 in 2.0 ms, or in a shorter peak_time_max. -/
def coilOpen (c : Fin 8) (d : Dev) : Dev :=
  match d.runOn c with
  | none => d
  | some r =>
    let s := d.sol.get r.ch
    if !d.awake || s.phase != .peak || s.strong || !d.past s.phaseTs (min (2 * ms) (r.peakMax * hundred)) then d else
    let detail := d.solDetail r.ch.val (pairOf r.ch).val (d.runSense r) (r.peak / 8)
    let d := d.cutPulse r cCoilOpen (d.nextRef cCoilOpen r.ch.val)
    let d := (d.releaseRun r.ch).shadowMate r.ch
    d.raise { code := cCoilOpen, sub := r.ch.val, sev := some .derate, lvl := .device,
              job := (d.adm r.seq).bind fun a => rJob a.raw, detail := detail }

/-- BOOST_OVERVOLT: the comparator at 1.10 times V_cl dumps and opens every gate (R412). -/
def boostOvervolt (code : Adc) (d : Dev) : Dev :=
  if !d.alive || d.noSolenoids then d else
  let detail := d.solDetail 0xFF 0xFF (vbstOf code.toNat) (d.clampLevel * 11 / 10)
  let ref := d.nextRef cBoostOvervolt 0
  let early := fin8.filter fun c => (d.sol.get c).pulsing
  let d := d.solx.runs.foldl (fun d r => d.cutPulse r cBoostOvervolt ref) d
  let d := { d with solx := { d.solx with dump := true, overvolt := true } }.gatesLow
  let d := d.each8 early fun c d => d.shadowMate c
  d.raise { code := cBoostOvervolt, sev := some .stopDevice, lvl := .device, detail := detail }

/-! ## The choppers (R357 to R360, R414) -/

/-- How much of the interval from lo to hi, in 10 ns from a start, a phase of len that ends at t covers. -/
def overlapIn (lo hi t len : Nat) : Nat := min t hi - max (t - len) lo

/-- A ratio k of R557 goes into a ledger entry: baseline or mean index. The answer is the index. -/
def Dev.ratioIn (d : Dev) (a k : Nat) : Nat × Dev :=
  let base := d.led a 2
  if base = 0 then (256, (d.ledSet a 2 k).ledSet (a + 2) 2 256)
  else
    let idx := min 65535 (max 64 (256 * k / base))
    let mean := (7 * d.led (a + 2) 2 + idx) / 8
    (mean, d.ledSet (a + 2) 2 mean)

/-- The on share of a winding over 100 ms after 100 ms of rest (R557). -/
def Dev.windShare (d : Dev) (x : Fin 4) (b : Bool) (len : Nat) : Dev :=
  let a := d.axes.get x
  let w := a.wind b
  let t := 4 * since d.clk.now a.restTs
  if a.moving || a.restTs = 0 || a.level < 32 then d.onAxis x fun a => a.setWind b { w with accOn := 0, accAll := 0 }
  else
    let part := overlapIn 10000000 20000000 t len
    let w := { w with accOn := w.accOn + (if w.on then part else 0), accAll := w.accAll + part }
    if t < 20000000 || w.accAll = 0 then d.onAxis x fun a => a.setWind b w
    else
      let s := w.accOn * 4096 / w.accAll
      let code := d.windCode x b
      let d := d.onAxis x fun a => a.setWind b { w with accOn := 0, accAll := 0 }
      if code = 0 then d else
      let (idx, d) := d.ratioIn (0x1C0 + 32 * x.val + (if b then 4 else 0)) (s * 1024 / code)
      if 320 ≤ idx then d.ageOnce cWindingDrift 2 (x.val + 16 * b2n b) idx 256 320 else d

/-- The chopper blanking time of an entry in 10 ns (R331). -/
def eBlank (e : List Byte) : Nat := 50 * (bits (eDrive e) 1 0 + 1)

/-- A winding whose on phase has lasted len since the axis's last full step began counts that time (R366). -/
def Dev.stepShare (d : Dev) (x : Fin 4) (b : Bool) (len : Nat) : Dev :=
  d.onAxis x fun a => a.setWind b { a.wind b with stepOn := (a.wind b).stepOn + min len (4 * since d.clk.now a.fullTs) }

/-- An on phase of a winding ends, no earlier than its blanking time, after 200 µs at the latest (R359, R365). -/
def onPhaseEnd (x : Fin 4) (b : Bool) (len : Nat) (d : Dev) : Dev :=
  let a := d.axes.get x
  if len < eBlank a.entry then d else
  let len := min len 20000
  let d := (d.windShare x b len).stepShare x b len
  let a := d.axes.get x
  let code := d.windCode x b
  let r := lfsrNext a.lfsr
  let off := d.offTime d.motorToff r
  let fast := [0, off / 8, off / 4, off / 2].getD (bits (eDrive a.entry) 3 2) 0
  let slow := !a.moving || d.speedNow x * 4 < d.topSpeed x
  let n := if 20000 ≤ len && 125 ≤ code && slow then (a.wind b).limits + 1 else 0
  let opened := decide (16 ≤ n)
  let d := d.onAxis x fun a => { a.setWind b { a.wind b with
    on := false, dir := if a.target (d.dcAxis x) b = 0 then (a.wind b).dir else decide (0 ≤ a.target (d.dcAxis x) b)
    off := off, fast := fast, phaseTs := d.clk.now, limits := if opened then 0 else n } with lfsr := r }
  if !opened then d else
  d.raise { code := cWindingOpen, sub := x.val, sev := some .stopDevice, lvl := .device, job := d.bandJob,
            detail := d.motionDetail x.val (b2n b) code 125 d.nextLineTick }

/-- An off phase of a winding ends once it has lasted its time; a target of 0 stays in slow decay (R359). -/
def offPhaseEnd (x : Fin 4) (b : Bool) (len : Nat) (d : Dev) : Dev :=
  let w := (d.axes.get x).wind b
  if len < w.off then d else
  (d.windShare x b len).onAxis x fun a => a.onPhase d.motorVfs (d.dcAxis x) b d.clk.now

/-- A phase of a winding ends. The B half-bridges of a DC axis are not used, and its brake holds off the chopper (R323,
R356). -/
def windingPhase (x : Fin 4) (b : Bool) (len : Nat) (d : Dev) : Dev :=
  let a := d.axes.get x
  if !d.operating || !a.energised || a.held || (b && d.dcAxis x) || (x == 3 && d.mot.auxBrake) then d
  else if (a.wind b).on then onPhaseEnd x b len d
  else offPhaseEnd x b len d

/-- The on share of a coil from 20 ms to 50 ms of a hold phase of at least 50 ms (R557). -/
def Dev.coilShare (d : Dev) (c : Fin 8) (r : SolRun) (len : Nat) : Dev :=
  let s := d.sol.get c
  let t := 4 * since d.clk.now s.phaseTs
  if s.phase != .hold || r.holdTime < 500 then d else
  let part := overlapIn 2000000 5000000 t len
  let s := { s with accOn := s.accOn + (if s.gate then part else 0), accAll := s.accAll + part }
  if t < 5000000 || s.accAll = 0 then d.onSol c fun _ => s
  else
    let d := d.onSol c fun _ => { s with accOn := 0, accAll := 0 }
    let code := r.dac r.hold
    if code = 0 then d else
    let (idx, d) := d.ratioIn (0x240 + 16 * c.val) (s.accOn * 4096 / s.accAll * 1024 / code)
    if 320 ≤ idx then d.ageOnce cCoilDrift 3 c.val idx 256 320 else d

/-- A phase of a coil ends: an on phase no earlier than its blanking time of 1.0 µs, an off phase once it has lasted its time; both
channels of a paralleled pair switch together (R414, R424). -/
def coilPhase (c : Fin 8) (len : Nat) (d : Dev) : Dev :=
  match d.runOn c with
  | none => d
  | some r =>
    if !d.operating || r.ch ≠ c || !(d.sol.get c).pulsing then d else
    let s := d.sol.get c
    if len < (if s.gate then 100 else s.off) then d else
    let d := d.coilShare c r len
    if s.gate then d.coilOff r len else d.each8 r.chans fun c d => d.gate c true

/-- CHOPPER_PHASE_END. -/
def chopperPhase (c : Chopped) (len : Nat) (d : Dev) : Dev :=
  match c with
  | .winding x b => windingPhase x b len d
  | .coil ch => coilPhase ch len d

/-! ## The commands -/

/-- PULSE_START. -/
def execPulseStart (seq : W32) (s : State) : Host.Outcome State Fault Refusal :=
  .next { s with dev := (pulseStart seq s.dev).finish }
/-- SOLENOID_DEADLINE. -/
def execSolenoidDeadline (seq : W32) (s : State) : Host.Outcome State Fault Refusal :=
  .next { s with dev := (solenoidDeadline seq s.dev).finish }
/-- ADCB_SAMPLE. -/
def execAdcbSample (sc : Oct Adc) (vbst : Adc) (s : State) : Host.Outcome State Fault Refusal :=
  .next { s with dev := (adcbSample sc vbst s.dev).finish }
/-- ON_SHARE_WINDOW. -/
def execOnShareWindow (ch : Fin 8) (s : State) : Host.Outcome State Fault Refusal :=
  .next { s with dev := (onShare ch s.dev).finish }
/-- PEAK_END. -/
def execPeakEnd (ch : Fin 8) (s : State) : Host.Outcome State Fault Refusal :=
  .next { s with dev := (peakEnd ch s.dev).finish }
/-- HOLD_END. -/
def execHoldEnd (ch : Fin 8) (s : State) : Host.Outcome State Fault Refusal :=
  .next { s with dev := (holdEnd ch s.dev).finish }
/-- CHANNEL_OFF. -/
def execChannelOff (ch : Fin 8) (s : State) : Host.Outcome State Fault Refusal :=
  .next { s with dev := (channelOff ch s.dev).finish }
/-- COIL_MODEL_UPDATE. -/
def execCoilModelUpdate (s : State) : Host.Outcome State Fault Refusal :=
  .next { s with dev := (coilModels s.dev).finish }
/-- COIL_OPEN. -/
def execCoilOpen (ch : Fin 8) (s : State) : Host.Outcome State Fault Refusal :=
  .next { s with dev := (coilOpen ch s.dev).finish }
/-- COIL_SHORT_SUPPLY. -/
def execCoilShortSupply (ch : Fin 8) (reading : BitVec 16) (s : State) : Host.Outcome State Fault Refusal :=
  .next { s with dev := (shortSupply ch reading.toNat s.dev).finish }
/-- COIL_IDLE_TEST. -/
def execCoilIdleTest (readings : Oct Adc) (s : State) : Host.Outcome State Fault Refusal :=
  .next { s with dev := (idleTest readings s.dev).finish }
/-- BOOST_OVERVOLT. -/
def execBoostOvervolt (code : Adc) (s : State) : Host.Outcome State Fault Refusal :=
  .next { s with dev := (boostOvervolt code s.dev).finish }
/-- CHOPPER_PHASE_END. -/
def execChopperPhaseEnd (c : Chopped) (len : BitVec 32) (s : State) : Host.Outcome State Fault Refusal :=
  .next { s with dev := (chopperPhase c len.toNat s.dev).finish }

end Sys2Proof.Machine
end

