-- ==== Sys2Proof/Machine/Serial.lean ====
section
/-! DEFINITION. The serial port: frames, units, polls and answers (12, R442 to R467). -/

namespace Sys2Proof.Machine

/-! ## Characters on the wire (R444 to R446) -/

/-- A bit as the majority of its samples (R444). -/
def voted (v : BitVec 3) : Bool := decide (2 ≤ b2n (v.getLsbD 0) + b2n (v.getLsbD 1) + b2n (v.getLsbD 2))

/-- The first n of a bit's samples are not all equal (R445). -/
def unequal (v : BitVec 3) (n : Nat) : Bool := v % BitVec.ofNat 3 (2 ^ n) != 0 && (~~~v) % BitVec.ofNat 3 (2 ^ n) != 0

/-- How many samples of the last stop bit take part in the noise test: those before a latched edge (R446). -/
def rxPart (c : UBits) : Nat := match c.edge with | none => 3 | some n => min 3 (n.toNat - 6)

/-- A character as the receiver stores it with its tags under a format; nothing when its start bit is decided high (R444 to
R446). -/
def rxChar (format : Nat) (c : UBits) : Option UChar :=
  let b (i : Nat) : BitVec 3 := c.bits.getD i 7
  let par := format == 1 || format == 2
  let last := if format = 0 then 9 else 10
  let data := (List.range 8).map fun i => voted (b (i + 1))
  if voted (b 0) then none else some {
    byte := BitVec.ofNat 8 (data.foldr (fun x n => b2n x + 2 * n) 0)
    noise := (List.range last).any (fun i => unequal (b i) 3) || unequal (b last) (rxPart c)
    parity := par && (data.foldl (fun n x => n + b2n x) 0 + b2n (voted (b 9))) % 2 != b2n (format == 2)
    framing := !voted (b last) || (format == 3 && !voted (b 9)) }

/-- What a sync character measures: the UART clocks of 8 bit times, none when the edge that opens data bit 1, 3 or 5 lies more than
1/8 bit time from its place (R459). -/
def syncClocks (edges : List Nat) : Option Nat :=
  match edges with
  | [a, b, c, e] =>
    let off (x k : Nat) : Bool := decide (e < 8 * ((8 * x : Int) - (k * e : Nat)).natAbs)
    if e = 0 || off a 2 || off b 4 || off c 6 then none else some e
  | _ => none

/-- The characters that the receiver stores of what comes on the line. -/
def Dev.received (d : Dev) (l : ULine) : UFrame := ⟨l.chars.filterMap (rxChar d.uartFormat), syncClocks l.edges⟩

/-- UART clocks make up n bit times of the rate in force (R449, R452). -/
def Dev.bitTimes (d : Dev) (clocks n : Nat) : Bool := decide (50000000 * n ≤ clocks * d.uart.rate)

/-! ## Fields of a frame or a unit (R448, R450, R461) -/

/-- The checksum of R450: the inverse of an 8-bit sum with the carry added back. -/
def checksum (bs : List Byte) : Byte :=
  ~~~ (BitVec.ofNat 8 (bs.foldl (fun s b => let t := s + b.toNat; if 256 ≤ t then t - 255 else t) 0))

/-- The protected identifier of an identifier: P0 and P1 (R448). -/
def pidOf (id : Nat) : Byte :=
  let p0 := (bit id 0 != bit id 1) != (bit id 2 != bit id 4)
  let p1 := !((bit id 1 != bit id 3) != (bit id 4 != bit id 5))
  BitVec.ofNat 8 (id % 64 + 64 * b2n p0 + 128 * b2n p1)

/-- The data bits of the characters. -/
def charBytes (f : UFrame) : List Byte := f.chars.map (·.byte)

/-- A frame or unit as the receiver takes it apart: head is the number of characters before length. -/
structure Parsed where
  head : Nat
  bytes : List Byte
deriving DecidableEq, Repr

/-- A frame after its break: sync and pid stand before length. -/
def frameOf (f : UFrame) : Parsed := ⟨2, charBytes f⟩
/-- A stream unit: the lead character stands before length. -/
def unitOf (f : UFrame) : Parsed := ⟨1, charBytes f⟩

/-- length as received, none before it has come. -/
def Parsed.len (p : Parsed) : Option Nat := (p.bytes[p.head]?).map (·.toNat)
/-- address, 0 when it is absent or has not come. -/
def Parsed.addr (p : Parsed) : Nat := if p.len = some 0 || p.bytes.length < p.head + 4 then 0 else le p.bytes (p.head + 1) 3
/-- Characters that the whole frame or unit has, by its length field. -/
def Parsed.whole (p : Parsed) : Nat := match p.len with | none => 0 | some 0 => p.head + 2 | some n => p.head + 5 + n
/-- The data bytes. -/
def Parsed.data (p : Parsed) : List Byte := (p.bytes.drop (p.head + 4)).take (p.len.getD 0)
/-- Length above 128, or an address outside the slice (R452). -/
def Parsed.badField (p : Parsed) : Bool :=
  match p.len with
  | none => false
  | some 0 => false
  | some n => 128 < n || 0x400000 ≤ p.addr || 0x400000 < p.addr + n
/-- Whether it verifies: the checksum runs over pid, in a unit over length, to the last data byte (R450, R461). -/
def Parsed.verifies (p : Parsed) : Bool :=
  p.bytes.length == p.whole && p.bytes.getD (p.whole - 1) 0 == checksum ((p.bytes.take (p.whole - 1)).drop 1)

/-- Detail of serial port records (12). -/
def Dev.serialDetail (d : Dev) (f : UFrame) (p : Parsed) : List Byte :=
  let tags (c : UChar) : Nat := b2n c.noise + 2 * b2n c.parity + 4 * b2n c.framing
  let (i, t, v) := match (f.chars.zipIdx).find? fun x => tags x.1 ≠ 0 with
    | some x => (x.2, tags x.1, x.1.byte)
    | none => (0xFF, 0, 0)
  let id := if d.uartMode = 1 then 0xFF else (p.bytes.getD 1 0).toNat % 64
  [BitVec.ofNat 8 d.uartMode, BitVec.ofNat 8 id, BitVec.ofNat 8 i, BitVec.ofNat 8 t, v,
    BitVec.ofNat 8 (p.len.getD 0xFF)] ++ leBytes 3 p.addr ++ [0] ++ leBytes 4 d.uart.rate

/-! ## Counters, flow control and answers -/

/-- A frame or unit is counted in frames_bad (R453, R458). -/
def Dev.frameBad (d : Dev) : Dev := { d with uart := { d.uart with framesBad := min 255 (d.uart.framesBad + 1) } }

/-- NOISE-tagged characters of an accepted frame or unit (R458). -/
def Dev.noisy (d : Dev) (f : UFrame) : Dev :=
  { d with uart := { d.uart with noisy := min 255 (d.uart.noisy + (f.chars.filter (·.noise)).length) } }

/-- An accepted frame or a unit is discarded with a code (R453, R462). -/
def Dev.discard (d : Dev) (f : UFrame) (p : Parsed) (code : W16) : Dev :=
  d.frameBad.raise { code := code, sev := some .note, detail := d.serialDetail f p }

/-- What discards an accepted frame or a unit, by the order of R452 (R462). -/
def lostFor (f : UFrame) (p : Parsed) (parity : Bool) : Option W16 :=
  if f.chars.any fun c => c.framing || (parity && c.parity) then some cUartCharError
  else if p.badField then some cUartField
  else if !p.verifies then some cUartChecksum
  else none

/-- The status summary (R458). -/
def Dev.summary (d : Dev) : List Byte :=
  [BitVec.ofNat 8 (b2n d.sys.ready + 2 * b2n (!d.sys.faultN) + 4 * b2n d.cel.defaults + 8 * b2n d.link.driving +
      16 * d.powerState + 64 * b2n d.uart.held), BitVec.ofNat 8 (min 255 d.rings.openFaults.length)] ++
    leBytes 2 ((d.rings.jobNext.getD 0)).toNat ++ leBytes 2 d.rings.statusSeq.toNat ++
    [BitVec.ofNat 8 d.uart.framesBad, BitVec.ofNat 8 d.uart.noisy]

/-- An answer waits to be sent. -/
def Dev.answer (d : Dev) (bytes : List Byte) (poll : Bool) : Dev :=
  { d with uart := { d.uart with replies := d.uart.replies ++ [(bytes, poll)] } }

/-- The answer to a frame that carries the device's own identifier (R456, R457). -/
def Dev.frameReply (d : Dev) (pid : Byte) (body : List Byte) (poll : Bool) : Dev :=
  if pid.toNat % 64 = d.uartId && d.link.driving then d.answer (body ++ [checksum (pid :: body)]) poll else d

/-- The answer to a unit (R463). -/
def Dev.unitReply (d : Dev) (body : List Byte) (poll : Bool) : Dev := d.answer (0x55 :: body ++ [checksum body]) poll

/-! ## Writes (R454, R455) -/

/-- The parts of a forwarded write: at most 40 bytes each (R571). -/
def writeParts : Nat → List Byte → List (List Byte)
  | 0, _ => []
  | _, [] => []
  | n + 1, bs => bs.take 40 :: writeParts n (bs.drop 40)

/-- The driving half of a pair forwards a verified write (R455, R570). -/
def Dev.forwardWrite (d : Dev) (addr : Nat) (data : List Byte) : Dev :=
  if !d.pairPrimary then d else
  let ps := writeParts 4 data
  ((ps.zipIdx).foldl (init := d) fun (d : Dev) x =>
    d.sendFrame 0x40 0xFF (d.clk.tickNo.toNat % 65536)
      (leBytes 4 d.port.writeCount.toNat ++ leBytes 3 (addr + 40 * x.2) ++ [BitVec.ofNat 8 (x.2 + 16 * ps.length)] ++ x.1))

/-- A verified write is applied as one host write transaction; the answer is its result byte (R454, R457). -/
def Dev.serialWrite (d : Dev) (addr : Nat) (data : List Byte) : Byte × Dev :=
  if !d.sys.ready then (2, { d with port := { d.port with prewrite := d.port.prewrite + 1, writeCount := d.port.writeCount + 1 } }) else
  let cells := (data.zipIdx).map fun x => (addr + x.2, x.1)
  let part := d.partLost cells
  let d := (d.forwardWrite addr data).hostWrite 1 cells
  (if part then 1 else 0,
   if cells.any fun c => hostIgnored c.1 then { d with port.undecoded := d.port.undecoded + 1 } else d)

/-! ## Frames (R451 to R460) -/

/-- Whether the serial port receives: the personality is valid, the chip drives, CLKIN runs; the half of a pair that does
not drive uses its partner's receiver (R455). -/
def Dev.hears (d : Dev) : Bool := d.pers.valid && d.clk.clkinOk && d.sys.phase != .noClock && (d.role == 0 || d.link.driving)

/-- Frame mode, with the receiver on: in Dormant only at 19,200 bit/s and below (R466). -/
def Dev.framing (d : Dev) : Bool := d.hears && (2 ≤ d.uartMode) && (d.sys.sleep != .dormant || d.uart.rate ≤ 19200)

/-- Stream mode with the receiver on. -/
def Dev.streaming (d : Dev) : Bool := d.hears && d.uartMode == 1 && d.sys.sleep != .dormant

/-- Whether the measurement of a sync character fails: its edges, or a rate more than 2 % outside the group's range (R459). -/
def Dev.rateFails (d : Dev) (f : UFrame) : Bool :=
  d.uartMode == 3 && (match f.measured with
    | none => true
    | some n => 40000000000 < d.uartLow * 98 * n || d.uartRate * 102 * n < 40000000000)

/-- The sync character sets the rate from the pid on, kept in whole bit/s (R460, log entry 143). -/
def Dev.takeRate (d : Dev) (f : UFrame) : Dev :=
  match f.measured with
  | some n => if d.uartMode = 3 then { d with uart := { d.uart with rate := 400000000 / max n 1 } } else d
  | none => d

/-- Whether the pid's parity holds (R453). -/
def pidOk (pid : Byte) : Bool := pidOf (pid.toNat % 64) == pid

/-- Whether the device accepts an identifier (R451). -/
def Dev.accepts (d : Dev) (pid : Byte) : Bool := pid.toNat % 64 == d.uartId || pid.toNat % 64 == 0x3F

/-- A verified accepted frame (R454 to R458). -/
def Dev.takeFrame (d : Dev) (p : Parsed) : Dev :=
  let pid := p.bytes.getD 1 0
  if p.len = some 0 then (if pid.toNat % 64 = 0x3F then d else d.frameReply pid d.summary true)
  else
    let (r, d) := d.serialWrite p.addr p.data
    d.frameReply pid [r] false

/-- A whole frame has come after its break. -/
def Dev.uartFrame (d : Dev) (f : UFrame) : Dev :=
  let p := frameOf f
  let pid := p.bytes.getD 1 0
  let d := { d with uart := { d.uart with opened := false } }
  if p.bytes.getD 0 0 ≠ 0x55 || d.rateFails f then d.frameBad
  else
    let d := d.takeRate f
    if d.sys.sleep == .dormant && 19200 < d.uart.rate then d.frameBad
    else if !pidOk pid then d.frameBad
    else if !d.accepts pid then (if (lostFor f p false).isSome then d.frameBad else d)
    else if p.len = some 0 && pid.toNat % 64 = 0x3F && (lostFor f p false).isNone then d
    else
      let d := d.noisy f
      match lostFor f p false with
      | some c => d.discard f p c
      | none =>
        if d.sys.sleep != .dormant then d.takeFrame p
        -- R467: the frame wakes the device, which applies and answers it once it has left Dormant
        else if pid.toNat % 64 = d.uartId then
          { d with uart := { d.uart with deferred := some f } }
        else d

/-- UART_BREAK: a low of at least 11 bit times discards a frame in progress and opens a new one (R449). -/
def uartBreak (clocks : Nat) (d : Dev) : Dev := if d.framing && d.bitTimes clocks 11 then { d with uart := { d.uart with opened := true } } else d

/-- UART_WRITE_FRAME: a whole frame with data. -/
def uartWriteFrame (f : UFrame) (d : Dev) : Dev :=
  let p := frameOf f
  if !d.framing || !d.uart.opened || p.len.isNone || p.len = some 0 || (!p.badField && p.bytes.length ≠ p.whole) then d else d.uartFrame f

/-- UART_POLL: a whole frame without data (R458). -/
def uartPoll (f : UFrame) (d : Dev) : Dev :=
  let p := frameOf f
  if !d.framing || !d.uart.opened || p.len ≠ some 0 || p.bytes.length ≠ p.whole then d else d.uartFrame f

/-! ## Stream mode (R461 to R465) -/

/-- A unit is taken: written, polled or discarded, and answered in each case (R462, R463). -/
def Dev.takeUnit (d : Dev) (f : UFrame) : Dev :=
  let p := unitOf f
  let d := d.noisy f
  match lostFor f p true with
  | some c => (d.discard f p c).unitReply [0x80] false
  | none =>
    if p.len = some 0 then d.unitReply d.summary true
    else
      let (r, d) := d.serialWrite p.addr p.data
      d.unitReply [r] false

/-- Bytes held in the receive buffer. -/
def Dev.rxUsed (d : Dev) : Nat := d.uart.rxUnits.foldl (fun n f => n + f.chars.length) 0

/-- A twin primary waits for link capacity to forward units while its own frame is being sent again (R464; log entry
26). -/
def Dev.rxBlocked (d : Dev) : Bool := d.pairPrimary && d.link.flights.any fun f => 0 < f.tries

/-- XOFF and XON of the device's own, ahead of any answer (R464). -/
def Dev.flow (d : Dev) : Dev :=
  let free := 512 - d.rxUsed
  if !d.uart.xoffSent && free < 160 then { d with uart := { d.uart with xoffSent := true, sent := [0x13] } }
  else if d.uart.xoffSent && 320 ≤ free then { d with uart := { d.uart with xoffSent := false, sent := [0x11] } }
  else d

/-- Units held back are applied as soon as nothing blocks them. -/
def Dev.drainUnits (d : Dev) : Dev :=
  if d.rxBlocked then d
  else (d.uart.rxUnits.foldl (fun (d : Dev) f => d.takeUnit f) { d with uart := { d.uart with rxUnits := [] } }).flow

/-- A whole unit has come (R464: one that finds the buffer full is discarded). -/
def Dev.uartUnit (d : Dev) (f : UFrame) : Dev :=
  let d := d.drainUnits
  if !d.rxBlocked then d.takeUnit f
  else if 512 < d.rxUsed + f.chars.length then (d.discard f (unitOf f) cUartOverrun).unitReply [0x80] false
  else { d with uart := { d.uart with rxUnits := d.uart.rxUnits ++ [f] } }.flow

/-- STREAM_WRITE_UNIT: a whole unit with data. -/
def streamWriteUnit (f : UFrame) (d : Dev) : Dev :=
  let p := unitOf f
  if !d.streaming || p.bytes.getD 0 0 ≠ 0x55 || p.len.isNone || p.len = some 0 || (!p.badField && p.bytes.length ≠ p.whole) then d
  else d.uartUnit f

/-- STREAM_POLL_UNIT: a whole unit without data. -/
def streamPollUnit (f : UFrame) (d : Dev) : Dev :=
  let p := unitOf f
  if !d.streaming || p.bytes.getD 0 0 ≠ 0x55 || p.len ≠ some 0 || p.bytes.length ≠ p.whole then d else d.uartUnit f

/-- STREAM_STRAY_CHAR: a character between units that opens none and is no flow control. -/
def streamStray (c : Option UChar) (d : Dev) : Dev :=
  match c with
  | none => d
  | some c => if !d.streaming || c.byte = 0x55 || c.byte = 0x11 || c.byte = 0x13 then d else d.drainUnits.frameBad

/-- XON. -/
def xonTaken (d : Dev) : Dev := if d.streaming then { d with uart := { d.uart with held := false } }.drainUnits else d
/-- XOFF: nothing more is sent until XON (R465). -/
def xoffTaken (d : Dev) : Dev := if d.streaming then { d with uart := { d.uart with held := true } }.drainUnits else d

/-- UART_TIMEOUT: more than 16 bit times of idle within a frame or unit (R452, R453, R462). -/
def uartTimeout (f : UFrame) (clocks : Nat) (d : Dev) : Dev :=
  let r := if d.framing && !d.rateFails f && 2 ≤ f.chars.length then d.takeRate f else d
  if f.chars.isEmpty || decide (clocks * r.uart.rate ≤ 50000000 * 16) then d
  else if d.streaming then
    (if (charBytes f).getD 0 0 ≠ 0x55 then d else ((d.drainUnits.noisy f).discard f (unitOf f) cUartTimeout).unitReply [0x80] false)
  else if !d.framing || !d.uart.opened then d
  else
    let d := { d with uart := { d.uart with opened := false } }
    let pid := (charBytes f).getD 1 0
    if (charBytes f).getD 0 0 ≠ 0x55 || d.rateFails f || f.chars.length < 2 then d.frameBad
    else
      let d := d.takeRate f
      if !pidOk pid || !d.accepts pid || (d.sys.sleep == .dormant && 19200 < d.uart.rate) then d.frameBad
      else (d.noisy f).discard f (frameOf f) cUartTimeout

/-- UART_REPLY: the answer that waits longest goes out; a poll's clears the two counters (R456, R458, R463, R465). -/
def uartReply (d : Dev) : Dev :=
  if !d.hears || d.uartMode = 0 || d.uart.held || d.sys.sleep == .dormant then d else
  let d := d.drainUnits
  match d.uart.replies with
  | [] => d
  | (b, poll) :: rest =>
    let u := { d.uart with replies := rest, sent := b }
    { d with uart := if poll then { u with framesBad := 0, noisy := 0 } else u }

/-! ## The commands -/

/-- UART_BREAK. -/
def execUartBreak (clocks : BitVec 32) (s : State) : Host.Outcome State Fault Refusal :=
  .next { s with dev := (uartBreak clocks.toNat s.dev).finish }
/-- UART_WRITE_FRAME. -/
def execUartWriteFrame (f : ULine) (s : State) : Host.Outcome State Fault Refusal :=
  .next { s with dev := (uartWriteFrame (s.dev.received f) s.dev).finish }
/-- UART_POLL. -/
def execUartPoll (f : ULine) (s : State) : Host.Outcome State Fault Refusal :=
  .next { s with dev := (uartPoll (s.dev.received f) s.dev).finish }
/-- STREAM_WRITE_UNIT. -/
def execStreamWriteUnit (f : ULine) (s : State) : Host.Outcome State Fault Refusal :=
  .next { s with dev := (streamWriteUnit (s.dev.received f) s.dev).finish }
/-- STREAM_POLL_UNIT. -/
def execStreamPollUnit (f : ULine) (s : State) : Host.Outcome State Fault Refusal :=
  .next { s with dev := (streamPollUnit (s.dev.received f) s.dev).finish }
/-- STREAM_STRAY_CHAR. -/
def execStreamStrayChar (c : UBits) (s : State) : Host.Outcome State Fault Refusal :=
  .next { s with dev := (streamStray (rxChar s.dev.uartFormat c) s.dev).finish }
/-- XON. -/
def execXon (s : State) : Host.Outcome State Fault Refusal :=
  .next { s with dev := (xonTaken s.dev).finish }
/-- XOFF. -/
def execXoff (s : State) : Host.Outcome State Fault Refusal :=
  .next { s with dev := (xoffTaken s.dev).finish }
/-- UART_TIMEOUT. -/
def execUartTimeout (f : ULine) (clocks : BitVec 32) (s : State) : Host.Outcome State Fault Refusal :=
  .next { s with dev := (uartTimeout (s.dev.received f) clocks.toNat s.dev).finish }
/-- UART_REPLY. -/
def execUartReply (s : State) : Host.Outcome State Fault Refusal :=
  .next { s with dev := (uartReply s.dev).finish }

end Sys2Proof.Machine
end

