-- ==== Sys2Proof/Machine/Vintages.lean ====
section
/-! DEFINITION. The cellar at run time: the CORK pulse, the steps of a store, bad sectors, cellar reads (R470 to R474, R484
to R498). -/

namespace Sys2Proof.Machine

/-! ## Bad sectors (R471 to R474) -/

/-- The lowest spare that no entry in use names. -/
def freeSpare (t : BadTab) : Option Nat :=
  (List.range 32).find? fun s => !(t.entries.any fun e => e.getLsbD 15 && bits e.toNat 13 9 == s)

/-- The table with one more entry, in the first place not in use. -/
def BadTab.enter (t : BadTab) (bad spare : Nat) : BadTab :=
  let e : BitVec 16 := BitVec.ofNat 16 (0x8000 + spare * 512 + bad % 512)
  let es := match t.entries.findIdx? fun x => !x.getLsbD 15 with
    | some i => t.entries.set i e
    | none => t.entries ++ [e]
  { seq := t.seq + 1, entries := es, verifies := true }

/-- Write a table into the older copy. -/
def Cellar.writeTable (c : Cellar) (t : BadTab) : Cellar :=
  if c.table = some c.tab0 then { c with tab1 := t } else { c with tab0 := t }

/-- The spare that takes a failed sector's place, with the table entered; none when no spare or no entry is left. -/
def Cellar.retire (c : Cellar) (sector : Nat) : Option (Nat × Cellar) :=
  match c.table with
  | none => none
  | some t =>
    if 64 ≤ (t.entries.filter fun e => e.getLsbD 15).length then none
    else (freeSpare t).map fun s => (480 + s, c.writeTable (t.enter sector s))

/-- A store ends without a valid vintage (R489). -/
def Dev.storeFails (d : Dev) (st : Store) (stp sector : Nat) : Dev :=
  { d with cel.store := none }.raise { code := cStoreFailed, sev := some .derate, lvl := .device,
                                       detail := cellarDetail st.vintage.toNat 0 (b2n st.bankB) 0xFF sector 0 stp 0 }

/-- A sector fails: a spare takes its place, or the cellar is worn out and the store fails (R473, R474, R489). -/
def Dev.sectorFails (d : Dev) (st : Store) (sector : Nat) : Dev :=
  match d.cel.retire sector with
  | some (spare, c) =>
    { d with cel := c }.raise { code := cSectorRetired, sev := some .note,
                                detail := cellarDetail st.vintage.toNat 0 (b2n st.bankB) 0xFF sector spare 0 0 }
  | none =>
    let d := { d with cel.worn := true }.raise { code := cCellarWorn, sev := some .derate, lvl := .device,
                                                 detail := cellarDetail st.vintage.toNat 0 (b2n st.bankB) 0xFF sector 0 0 0 }
    d.storeFails st st.step sector

/-! ## The steps of a store (R488) -/

/-- CORK_PULSE: CORK was low, then high, each for a time in units, after its filter. A pulse takes 10 µs of each, in Idle or Run.
One that cannot be accepted is held; a second one is ignored (R484, R486, R487). -/
def corkPulse (low high : Nat) (d : Dev) : Dev :=
  if low < 10 * us || high < 10 * us || !d.sys.ready || !d.awake || d.factoryOnly then d
  else if d.cel.store.isNone && !d.measuring && !d.cel.pulseHeld then d.acceptPulse
  else if !d.cel.pulseHeld then { d with cel.pulseHeld := true }
  else d.raise { code := cCorkIgnored, sev := some .note, detail := cellarDetail d.vintageNow 0 0xFF 0xFF 0xFFFF 0 0 0 }

/-- The store that may go on now. -/
def Dev.storing (d : Dev) (stp : Nat → Bool) : Option Store :=
  if !d.operating then none else d.cel.store.filter fun (st : Store) => st.suspended.isNone && stp st.step

/-- CELLAR_ERASE_DONE: a sector of the target bank reads erased, or has failed (step 1). A failed sector's spare is
erased next. -/
def eraseDone (ok : Bool) (d : Dev) : Dev :=
  match d.storing (· == 1) with
  | none => d
  | some st =>
    let phys := d.cel.sector st.bankB st.sector
    if !ok then d.sectorFails st phys else
    let st := if st.sector + 1 < 238 then { st with sector := st.sector + 1 } else { st with step := 2, sector := 0 }
    { d with cel := { d.cel.erase phys with store := some st } }

/-- CELLAR_PROGRAM_DONE: a sector is programmed and read back, or has failed (steps 2 and 3). A failed sector's content goes
to its spare next. -/
def programDone (ok : Bool) (d : Dev) : Dev :=
  match d.storing fun n => n == 2 || n == 3 with
  | none => d
  | some st =>
    let (n, hdr) := st.target
    let phys := d.cel.sector st.bankB n
    if !ok then d.sectorFails st phys else
    let bytes := match hdr with | some c => d.storeHeader st c | none => st.sectorBytes (n % 119)
    let next := if st.step = 2 then (if st.sector + 1 < 236 then { st with sector := st.sector + 1 } else { st with step := 3, sector := 0 })
      else if st.sector = 0 then { st with sector := 1 } else { st with step := 4, sector := 0 }
    { d with cel := { (d.cel.erase phys).program phys bytes with store := some next } }

/-- STORE_COMPLETE: the new vintage is checked, and is the newest from then on (steps 4 and 5). -/
def storeComplete (d : Dev) : Dev :=
  match d.storing (· == 4) with
  | none => d
  | some st =>
    if (d.cel.bankState st.bankB).isSome then d.storeFails st 4 0xFFFF else
    let d := { d with cel := { d.cel with store := none, inUse := true, bankB := st.bankB } }.ledAdd 12 4 1
    d.raise { code := cVintageStored, sev := none,
              detail := cellarDetail st.vintage.toNat 0 (b2n st.bankB) 0xFF 0xFFFF 0 0 (since d.clk.now st.ts / ms) }

/-- STORE_RESUME: nothing suspends the store any longer; a starved one resumes in Idle (R490, R491). -/
def storeResume (d : Dev) : Dev :=
  match d.cel.store with
  | none => d
  | some st =>
    if !d.operating || st.suspended.isNone || d.readUnderWay || d.onFallback || (if st.starved then d.powerState ≠ 1 else d.printing) then d
    else { d with cel.store := some { st with suspended := none } }

/-- STORE_STARVED: 10 s of suspension (R491). -/
def storeStarved (d : Dev) : Dev :=
  match d.cel.store with
  | none => d
  | some st =>
    match st.suspended with
    | none => d
    | some t =>
      if !d.operating || st.starved || !d.past t (10000 * ms) then d else
      { d with cel.store := some { st with starved := true } }.raise
        { code := cStoreStarved, sev := some .note,
          detail := cellarDetail st.vintage.toNat 0 (b2n st.bankB) 0xFF 0xFFFF 0 0 (since d.clk.now t / ms) }

/-! ## Reads (R494 to R498, R587) -/

/-- The parts of a record's content in CELLAR frames: offset and at most 44 bytes (R571). -/
def cellarParts : Nat → Nat → List Byte → List (Nat × List Byte × Bool)
  | 0, _, _ => []
  | n + 1, o, bs => (o, bs.take 44, decide (bs.length ≤ 44)) :: (if bs.length ≤ 44 then [] else cellarParts n (o + 44) (bs.drop 44))

/-- Send a record's content, or a card image, to the other half (R570, R571). -/
def Dev.sendContent (d : Dev) (rec_ : Nat) (bs : List Byte) (absent : Bool) : Dev :=
  (cellarParts 150 0 bs).foldl (init := d) fun (d : Dev) x =>
    d.sendFrame 0x50 0xFF (d.clk.tickNo.toNat % 65536)
      ([BitVec.ofNat 8 rec_, BitVec.ofNat 8 (b2n x.2.2 + 2 * b2n absent)] ++ leBytes 2 x.1 ++ x.2.1)

/-- A record refused for want of its content. -/
def Dev.readRefused (d : Dev) (a : Adm) (code : W16) (ref : W32) : Dev :=
  (if rType a.raw = 0x10 then d.dropBand a.raw (bFirst a.raw, 0) else d).refuse (rSeq a.raw) code ref

/-- A read has ended: its content fills the section that the record needs, or the record is refused (R132, R135, R497,
R498). -/
def Dev.served (d : Dev) (a : Adm) (i : Nat) (s : Served) : Dev :=
  let d := { d with cel.reads := d.cel.reads.filter fun x => x.1 ≠ rSeq a.raw }
  match s with
  | .content b soft =>
    let d := if soft then d.corrected i else d
    if rType a.raw = 0x50 then (d.fillFrom (secNo (aType a.raw) (aIndex a.raw)) (aSlot a.raw) b).adopted a
    else (d.fillFrom (16 + a.media) (bMedia a.raw - 0x20) b).bandLoaded (rSeq a.raw)
  | .empty => d.readRefused a cCellarEmpty 0
  | .fail =>
    let ref := d.nextRef cCellarReadFail 0
    let d := d.raise { code := cCellarReadFail, sev := some .derate, lvl := .device, job := rJob a.raw,
                       detail := cellarDetail d.vintageNow 0 (b2n d.cel.bankB) i 0xFFFF 0 0 0 }
    d.readRefused a cCellarReadFail ref
  | .wait => d

/-- The read to serve next: of those that can be served the one of the lowest sequence number (R27). -/
def Dev.nextRead (d : Dev) : Option (W32 × Nat) :=
  (d.cel.reads.filter fun x => d.readRecord x.2 != .wait).foldl (init := none) fun best x =>
    match best with
    | none => some x
    | some b => if laterSeq b.1 x.1 then some x else some b

/-- CELLAR_READ_DONE (R494 to R497). In a formed pair the primary
reads for both halves (R587). -/
def cellarReadDone (d : Dev) : Dev :=
  if !d.operating || d.pairSecondary then d else
  match d.nextRead with
  | none => d
  | some (q, i) =>
    match d.adm q with
    | none => { d with cel.reads := d.cel.reads.filter fun x => x.1 ≠ q }
    | some a =>
      let s := d.readRecord i
      let d := if !d.pairPrimary then d else match s with | .content b _ => d.sendContent i b false | .empty => d.sendContent i [] false | _ => d
      d.served a i s

/-! ## The commands -/

/-- CORK_PULSE. -/
def execCorkPulse (low high : BitVec 32) (s : State) : Host.Outcome State Fault Refusal :=
  .next { s with dev := (corkPulse low.toNat high.toNat s.dev).finish }
/-- CELLAR_ERASE_DONE. -/
def execCellarEraseDone (ok : Bool) (s : State) : Host.Outcome State Fault Refusal :=
  .next { s with dev := (eraseDone ok s.dev).finish }
/-- CELLAR_PROGRAM_DONE. -/
def execCellarProgramDone (ok : Bool) (s : State) : Host.Outcome State Fault Refusal :=
  .next { s with dev := (programDone ok s.dev).finish }
/-- STORE_COMPLETE. -/
def execStoreComplete (s : State) : Host.Outcome State Fault Refusal :=
  .next { s with dev := (storeComplete s.dev).finish }
/-- STORE_RESUME. -/
def execStoreResume (s : State) : Host.Outcome State Fault Refusal :=
  .next { s with dev := (storeResume s.dev).finish }
/-- STORE_STARVED. -/
def execStoreStarved (s : State) : Host.Outcome State Fault Refusal :=
  .next { s with dev := (storeStarved s.dev).finish }
/-- CELLAR_READ_DONE. -/
def execCellarReadDone (s : State) : Host.Outcome State Fault Refusal :=
  .next { s with dev := (cellarReadDone s.dev).finish }

end Sys2Proof.Machine
end

