-- ==== Sys2Proof/Machine/Power.lean ====
section
/-! DEFINITION. Clocks, power states, the ends of reactions, firing holds and port resets (R500 to R533, R536 to R538,
R551, R552, R556). -/

namespace Sys2Proof.Machine

/-! ## Domains and their ramps (R501, R505, R508) -/

/-- Full frequency of a domain in kHz. -/
def domFull : Dom → Nat | .core => 400000 | .motion => 100000 | .adc => 50000
/-- Frequency of a domain's fallback source in kHz: CLK50, or CLKIN for ADC. -/
def domLow : Dom → Nat | .core => 50000 | .motion => 50000 | .adc => 25000
/-- Number of a domain in a detail. -/
def domCode : Dom → Nat | .core => 0 | .motion => 1 | .adc => 2
/-- The nearest ratio to a frequency, in sixteenths. -/
def ratioFor (khz : Nat) : Nat := roundDiv 12800000 khz
/-- Frequency of a domain in kHz, 0 when it is stopped. -/
def Domain.khz (c : Domain) : Nat := if c.ratio = 0 then 0 else roundDiv 12800000 c.ratio

/-- The domain's clock. -/
def Clk.dom (c : Clk) : Dom → Domain | .core => c.core | .motion => c.motion | .adc => c.adc
/-- Replace a domain's clock. -/
def Clk.setDom (c : Clk) (x : Dom) (v : Domain) : Clk :=
  match x with | .core => { c with core := v } | .motion => { c with motion := v } | .adc => { c with adc := v }

/-- The domain goes to a frequency on its present source and takes the source `after` at the end: in eight steps when the
frequency changes by a factor above 1.5, at once otherwise. -/
def Domain.rampTo (c : Domain) (khz : Nat) (after : ClkSrc) : Domain :=
  let now := c.khz
  if 2 * max now khz ≤ 3 * min now khz || now = 0 then { c with src := after, ratio := ratioFor khz, step := 8, after := after }
  else { c with fromKhz := now, toKhz := khz, step := 0, after := after }

/-- One step of a ramp: one eighth of the whole change, to the nearest ratio. -/
def Domain.step1 (c : Domain) : Domain :=
  let k := c.step + 1
  let khz : Int := (c.fromKhz : Int) + ((c.toKhz : Int) - c.fromKhz) * k / 8
  { c with step := k, ratio := ratioFor khz.toNat, src := if k = 8 then c.after else c.src }

/-- Down to the fallback source (R508, R509). -/
def Dev.fallDom (d : Dev) (x : Dom) : Dev :=
  let c := d.clk.dom x
  if c.src == .stopped then d else { d with clk := d.clk.setDom x (c.rampTo (domLow x) .fallback) }

/-- To the PLL: it switches at the frequency it has and ramps up; a stopped domain starts at its full frequency. -/
def Dev.riseDom (d : Dev) (x : Dom) : Dev :=
  let c := d.clk.dom x
  let c : Domain := if c.src == .stopped then ⟨.pll, ratioFor (domFull x), 0, 0, 8, .pll⟩ else { c with src := .pll }.rampTo (domFull x) .pll
  { d with clk := d.clk.setDom x c }

/-- Stop a domain. -/
def Dev.stopDom (d : Dev) (x : Dom) : Dev := { d with clk := d.clk.setDom x ⟨.stopped, 0, 0, 0, 8, .stopped⟩ }

/-- Every domain runs from the PLL at its own frequency. -/
def Dev.domainsBack (d : Dev) : Bool :=
  [Dom.core, Dom.motion, Dom.adc].all fun x => (d.clk.dom x).src == .pll && (d.clk.dom x).step == 8

/-- Every domain takes the PLL, or its fallback source while the PLL is out of lock. -/
def Dev.startDomains (d : Dev) : Dev :=
  if d.clk.locked then
    let d := ((d.riseDom .core).riseDom .motion).riseDom .adc
    { d with clk := { d.clk with headRun := true, linkRun := true } }
  else
    let one (x : Dom) (d : Dev) : Dev :=
      if (d.clk.dom x).src == .stopped then { d with clk := d.clk.setDom x ⟨.fallback, ratioFor (domLow x), 0, 0, 8, .fallback⟩ } else d
    one .adc (one .motion (one .core d))

/-- RAMP_STEP. Two milliseconds after every domain runs again from the PLL its shadow ends (R543). -/
def rampStep (x : Dom) (d : Dev) : Dev :=
  let c := d.clk.dom x
  if !d.clk.clkinOk || 8 ≤ c.step then d else
  let d := { d with clk := d.clk.setDom x c.step1 }
  if d.domainsBack then d.closeShadow .domain (2 * ms) else d

/-! ## Loss of lock (R504, R509 to R512) -/

/-- Detail of a PLL_UNLOCK record. -/
def Dev.unlockDetail (tick : Nat) : List Byte := clockDetail 0xFF 0 tick 0xFFFFFFFF 0

/-- HEAD and LINK stop, and every domain goes down to its fallback source (R509 step 3). -/
def Dev.fallAll (d : Dev) : Dev :=
  let d := { d with clk := { d.clk with headRun := false, linkRun := false } }
  ((d.fallDom .core).fallDom .motion).fallDom .adc

/-- The loss of lock is noted with its time and the sequence of the record that tells it (R511). -/
def Dev.markUnlock (d : Dev) : Dev :=
  { d with clk := { d.clk with locked := false, unlockTs := some d.clk.now, unlockLate := false, unlockSeq := d.nextRef cPllUnlock 0 } }

/-- The strobes of every port go off under PLL_UNLOCK, with the shadows of that (R509 step 1, R543). -/
def Dev.unlockStrobes (d : Dev) : Dev :=
  let ps := fin4.filter d.portOn
  ((d.kill ps cPllUnlock 0).shadowPorts ps).shadow .domain none none

/-- PLL_UNLOCK: strobes off, the fault, domains to their fallback sources; LINK stops, and with it a formed pair. Before
READY, or in a wake from Dormant, it only delays READY (R512). -/
def pllUnlock (d : Dev) : Dev :=
  if !d.clk.clkinOk || !d.clk.pllOn || !d.clk.locked then d else
  if !d.operating || !d.sys.ready then d.markUnlock.fallAll else
  let detail := Dev.unlockDetail d.firingTick
  let d := d.markUnlock.unlockStrobes
  let d := if d.pairSecondary then d.sendEvent cPllUnlock Sev.pause.code (d.scopeByte .device 0) 0 (lineTickOf cPllUnlock detail) 0 detail else d
  let d := (d.raise { code := cPllUnlock, sev := some .pause, lvl := .device, job := d.bandJob, detail := detail }).fallAll
  if d.link.formed then d.dissolve 8 cPllUnlock.toNat noTick 0 else d

/-- PLL_RELOCK_TIMEOUT: 1 ms without lock (R511). -/
def pllTimeout (d : Dev) : Dev :=
  match d.clk.unlockTs with
  | none => d
  | some t =>
    if !d.clk.clkinOk || !d.clk.pllOn || d.clk.locked || d.clk.unlockLate || !d.past t (1 * ms) || !d.alive then d else
    let first := d.clk.unlockSeq
    { d with clk.unlockLate := true }.raise
      { code := cPllUnlock, sev := some .stopDevice, lvl := .device, detail := Dev.unlockDetail noTick,
        related := if first = 0 then none else some first }

/-! ## Power states (R523 to R533) -/

/-- Evaluate COVER and HPn_OPEN as new readings (R532, R633). -/
def Dev.evaluatePins (d : Dev) : Dev :=
  let d := if d.media.cover then d.coverRaise else d
  d.each4 (fin4.filter fun p => d.portOn p && (d.heads.get p).openPin) fun p d => d.headRaise p

/-- Happenings that waited for READY (R517, R532). -/
def Dev.raiseEarly (d : Dev) : Dev :=
  d.sys.early.foldl (fun d r => d.raise r) { d with sys.early := [] }

/-- Number of a wake cause in WOKEN. -/
def wakeCode : WakeCause → Nat | .sleepLow => 0 | .wakePin => 1 | .serialFrame => 2 | .comparator => 3

/-- The device leaves a low-power state: WOKEN, the emitters' settling, the pins (R374, R530 to R532). -/
def Dev.woken (d : Dev) (left : Nat) (cause : WakeCause) : Dev :=
  let ms_ := since d.clk.now d.sys.dozeTs / ms
  let d := { d with
    sys := { d.sys with sleep := .awake, sleepPin := false, sleepIgnored := cause != WakeCause.sleepLow, wakeCause := none, ready := true }
    sense := d.sense.mapIdx fun _ s => { s with settleTs := some d.clk.now } }
  let d := d.raise { code := cWoken, sev := none, detail := clockDetail 0xFF left noTick ms_ (wakeCode cause) }
  d.raiseEarly.evaluatePins

/-- A wake from Dormant ends with lock: the thermal and the coil models start again, READY rises, and a frame that woke the
device is applied (R467, R530). -/
def Dev.wokenDormant (d : Dev) (cause : WakeCause) : Dev :=
  let d := (d.each4 (fin4.filter d.portOn) fun p d => d.initPort p).initCoils
  let d := (d.woken 3 cause).endCond cPllUnlock 0
  match d.uart.deferred with
  | some f => { d with uart := { d.uart with deferred := none } }.uartFrame f
  | none => d

/-- PLL_LOCK: domains take the PLL's clock. It carries the reset sequence on (R45, R518), ends a wake from Dormant (R530),
or ends a loss of lock (R509). -/
def pllLock (d : Dev) : Dev :=
  if !d.clk.clkinOk || !d.clk.pllOn || d.clk.locked then d else
  let d := { d with
    clk := { d.clk with locked := true, unlockTs := none, unlockLate := false }
    -- the SET sources go on at the lock of a reset that samples the pins (R45, R60)
    pers.sources := !d.pers.setsDone && (d.sys.phase == Phase.straps || d.sys.phase == Phase.locking) }
  if d.sys.sleep == .doze then
    (({ d with clk := { d.clk with core := { d.clk.core with src := .pll, step := 8, after := .pll }, linkRun := d.link.formed } }.unkill fin4 cPllUnlock).endCond
      cPllUnlock 0).closeShadow .domain (2 * ms)
  else
  let d := d.startDomains
  match d.sys.phase with
  -- a personality already measured is not measured again (R43, R60)
  | .locking => { d with sys.phase :=
      if d.pers.valid then .vintage else if d.pers.error then .personalityError else if d.pers.setsDone then .cards else .settling }
  | .run =>
    match d.sys.wakeCause with
    | some c => d.wokenDormant c
    | none =>
      let d := (d.unkill fin4 cPllUnlock).endCond cPllUnlock 0
      if d.domainsBack then d.closeShadow .domain (2 * ms) else d
  | _ => d

/-- content_crc of a SYNC frame (R571). -/
def Dev.contentCrc (d : Dev) : W32 :=
  if !d.cel.inUse then 0 else match d.cel.head d.cel.bankB with | some h => crc32c ((h.drop 0x40).take 390) | none => 0

/-- node_state of a SYNC frame. -/
def Dev.nodeState (d : Dev) : Nat :=
  if d.sys.phase == .run then (if d.sys.sleep == .doze then 4 else 3)
  else if d.sys.resetKind == .safety then 5
  else if d.pers.valid then 2
  else if d.role = 2 && d.sys.phase == .cards then 1
  else 0

/-- A SYNC frame, with the time that its marked pulse loads where it marks one. -/
def Dev.sendSync (d : Dev) (mark : Option Ts) : Dev :=
  let st := d.nodeState
  d.sendFrame 0x10 0xFF 0
    ([BitVec.ofNat 8 st, BitVec.ofNat 8 (b2n mark.isSome + 2 * b2n d.link.imagesSent)] ++
      leBytes 4 (if d.pers.valid then d.pers.digest.toNat else 0) ++ leBytes 4 d.cel.vintage.toNat ++ leBytes 4 d.contentCrc.toNat ++
      leBytes 6 (mark.getD d.clk.now).toNat ++ leBytes 6 d.clk.tickNo.toNat ++ [BitVec.ofNat 8 (d.pos + 4 * d.mode + 16 * d.role)])

/-- SLEEP_REQUEST: SLEEP has been high for 10 µs (R524, R531). -/
def sleepRequest (d : Dev) : Dev :=
  if !d.clk.clkinOk || d.sys.sleepIgnored || d.sys.sleepPin then d
  else { d with sys := { d.sys with sleepPin := true, sleepTs := d.clk.now } }

/-- Whether the device may enter Doze (R525). -/
def Dev.mayDoze (d : Dev) : Bool :=
  d.awake && d.sys.sleepPin && d.powerState == 1 && d.cel.store.isNone &&
    !(d.flt.active.any fun r => r.started && 2 ≤ r.sev.code)

/-- The device enters Doze: axes are released, HEAD, MOTION and ADC stop, CORE goes to 50 MHz, LINK stops but in a pair (R526). -/
def Dev.enterDoze (d : Dev) : Dev :=
  let off (_ : Fin 4) (a : Axis) : Axis :=
    { a with energised := false, released := a.released || a.energised, a := { a.a with on := false }, b := { a.b with on := false } }
  let d := { d with axes := d.axes.mapIdx off, sys := { d.sys with sleep := .doze, dozeTs := d.clk.now } }
  let d := (d.stopDom .motion).stopDom .adc
  let d := { d with clk := { d.clk with headRun := false, linkRun := d.clk.linkRun && d.link.formed } }
  if d.clk.core.src == .pll then { d with clk.core := d.clk.core.rampTo (domLow .core) .pll } else d

/-- The device leaves Doze (R530). -/
def Dev.leaveDoze (d : Dev) (cause : WakeCause) : Dev := d.startDomains.woken 2 cause

/-- The primary of a pair tells the secondary of the state that it has entered (R525, R533). -/
def Dev.tellSleep (d : Dev) : Dev := if d.pairPrimary then d.sendSync none else d

/-- DOZE_ENTRY (R525). In a twin pair the primary decides. -/
def dozeEntry (d : Dev) : Dev := if !d.mayDoze || d.pairSecondary then d else d.enterDoze.tellSleep

/-- DORMANT_ENTRY: 10 s of Doze under a sleep request (R528); not on a ring of several positions (R581). -/
def dormantEntry (d : Dev) : Dev :=
  if d.sys.sleep != .doze || !d.alive || !d.sys.sleepPin || d.sys.wakeCause.isSome || !d.past d.sys.dozeTs (10000 * ms) || d.mode ≠ 0 then d else
  let d := d.stopDom .core
  { d with
    sys := { d.sys with sleep := .dormant, ready := false }
    clk := { d.clk with pllOn := false, locked := false, unlockTs := none, unlockLate := false, headRun := false, linkRun := false } }

/-- WAKE (R529 to R531). SLEEP low ends a sleep request in every state. -/
def wake (cause : WakeCause) (d : Dev) : Dev :=
  if !d.clk.clkinOk then d else
  match d.sys.sleep with
  | .awake => if cause == .sleepLow then { d with sys := { d.sys with sleepPin := false, sleepIgnored := false } } else d
  | .doze =>
    if cause == .serialFrame || !d.alive then d
    -- the secondary of a pair leaves with its primary (R533)
    else if d.pairSecondary then { d with sys.wakeCause := some cause }
    else (d.leaveDoze cause).tellSleep
  | .dormant =>
    if d.sys.wakeCause.isSome || !d.alive || (cause == .serialFrame && d.uart.deferred.isNone) then d else
    { d with
      sys.wakeCause := some cause
      clk := { d.clk with pllOn := true, unlockTs := some d.clk.now, unlockLate := false, unlockSeq := 0,
                          core := ⟨.fallback, ratioFor (domLow .core), 0, 0, 8, .fallback⟩ } }

/-! ## Forced switches and HALTs (R507, R513, R514, R518, R551, R552) -/

/-- A HALT of one half's own circuits: a formed secondary leaves the pair first (R591). -/
def Dev.raiseHalt (d : Dev) (r : Rise) : Dev :=
  let d := if d.pairSecondary then
      (d.sendEvent r.code Sev.halt.code (d.scopeByte .device 0) 0 (lineTickOf r.code r.detail) 0 r.detail).dissolve 7 r.code.toNat noTick 0
    else d
  d.raise r

/-- The reset of the MOTION domain: axis positions and phase indices take their reset values, every gate is low until the
reaction ends (R357, R507). The media position stands. -/
def Dev.motionReset (d : Dev) : Dev :=
  let m := d.mediaPos
  let d := d.axesOff
  let d := { d with
    axes := d.axes.mapIdx fun _ a => { a with pos := 0, phase := 32, sinceFull := 0, low := 0, fullSteps := 0, restTs := d.clk.now }
    mot := { d.mot with baseX := 0, baseM := m, bound := m, lineBase := d.mot.menc, stopAbandon := none, auxHomed := false, auxFrom := d.mot.aenc }
    media.move := d.media.move.map fun (x : Move) => { x with paused := true } }
  let d := (d.solx.runs.filter (·.begun)).foldl (init := d) fun (d : Dev) (r : SolRun) =>
    if (d.sol.get r.ch).pulsing then d.onRun r.seq fun r => { r with void := true } else d
  d.gatesLow.shadow .gates none (some (500 * ms))

/-- CLK_FORCED: a switch away from the PLL was due, as the command says, and that input has stopped; the domain moves at once, without a ramp, and its logic is
reset. -/
def clkForced (x : Dom) (d : Dev) : Dev :=
  let c := d.clk.dom x
  if !d.clk.clkinOk || c.src != .pll then d else
  let d := { d with clk := d.clk.setDom x ⟨.fallback, ratioFor (domLow x), 0, 0, 8, .fallback⟩ }
  if !d.alive then d else
  let r : Rise := { code := cClkForced, sev := some (if x == .core then .halt else .stopDevice), lvl := .device, job := d.bandJob,
                    detail := clockDetail (domCode x) 0 d.firingTick 0 0 }
  match x with
  | .core => d.raiseHalt r
  | .motion => d.motionReset.raiseOwn r
  | .adc => { d with line := { d.line with sampled := false, startTs := none } }.raiseOwn r

/-- BST_DUMP_G may go high: SET9 is measured and not SHORT, and the device has no personality error (R407). -/
def Dev.dumpFit (d : Dev) : Bool := d.pers.setsDone && !d.noSolenoids && !d.persError

/-- CLKIN_LOST: logic that needs no clock takes every output to safety; HMEAS keeps its level. What the HALT's record will
say is kept until the reset (R162, R513). A personality error is left by a power-on reset or RESET_N alone (R78). -/
def clkinLost (d : Dev) : Dev :=
  if !d.clk.clkinOk then d else
  if d.sys.phase == .personalityError then
    { d with clk := { d.clk with clkinOk := false, locked := false, headRun := false, linkRun := false } }
  else
  let key := sourceKey cClkinLost 0
  let old := d.history key 0
  let d := d.setHistory key (d.clk.now :: old)
  let body := eventBody Sev.halt.code .device 0 d.pos (d.bandJob.getD (0, 0)).1 d.earliest (min (old.length + 1) 65535)
    (clockDetail 0xFF 0 d.firingTick 0 0)
  let d := ((d.kill fin4 cClkinLost 0).axesOff.gatesLow).shadow .gates none (some (500 * ms))
  { d with
    clk := { d.clk with clkinOk := false, locked := false, headRun := false, linkRun := false }
    sys := { d.sys with phase := .noClock, ready := false, haltCode := cClkinLost, haltBody := body ++ zeros (34 - body.length)
                        haltFlags := 128 * b2n d.bandJob.isSome, haltPorts := 0, haltTag := (d.bandJob.getD (0, 0)).2
                        early := d.sys.early.filter fun r => r.code == cStrobeStuck }
    solx := { d.solx with boost := false, dump := d.dumpFit }
    pers.sources := false
    link := { d.link with ownLow := false } }.faultLow

/-- CLKIN_RESTORED: 100 µs of edges after a loss make a safety reset; before the straps are decided the strap rounds start
again. -/
def clkinRestored (d : Dev) : Dev :=
  if d.clk.clkinOk then d else
  let d := { d with clk.clkinOk := true }
  if d.sys.phase != .noClock then d else
  let d := (d.safetyReset cClkinLost d.sys.haltBody true).haltFrame d.sys.haltFlags d.sys.haltPorts d.sys.haltTag
  if d.pers.strapsDone then d else { d with sys.phase := .straps, pers := { d.pers with rounds := [], pulls := true } }

/-- Order of the sequencers in R551. -/
def seqCode : Sequencer → Nat
  | .cellar => 0 | .admission => 1 | .statusWriter => 2 | .governor => 3 | .gaugeWriter => 4 | .tasting => 5

/-- Whether a step of a sequencer runs and counts: a store's while nothing suspends it, the status writer's while the slot at the
status pointer is the device's (R551). -/
def Dev.stepCounts (d : Dev) : Sequencer → Bool
  | .cellar => match d.cel.store with | some st => st.step ≤ 3 && st.suspended.isNone | none => false
  | .admission => !d.rings.posted.isEmpty
  | .statusWriter => !d.rings.queue.isEmpty && d.owns (statusSlot d.rings.statusPtr)
  | .governor => d.line.band.isSome
  | .gaugeWriter => true
  | .tasting => d.taste.isSome || d.learning.isSome

/-- SEQ_WATCHDOG: a HALT and a safety reset (R551, R552). The unit of its limit field is left open: a free value. -/
def seqWatchdog (q : Sequencer) (step : W32) (d : Dev) : Dev :=
  if !d.operating || !d.sys.ready || !d.stepCounts q then d else
  let (v, d) := d.drawFree
  d.raiseHalt { code := cSeqWatchdog, sev := some .halt, lvl := .device, job := d.bandJob
                detail := [6, BitVec.ofNat 8 (seqCode q)] ++ leBytes 4 step.toNat ++ leBytes 4 0 ++ leBytes 4 v ++ zeros 6 }

/-! ## Firing holds, port resets, the ends of reactions (R519, R521, R536, R538) -/

/-- FIRING_HOLD_END: the port takes its first sample set and may fire. -/
def firingHoldEnd (p : Fin 4) (set : SampleSet) (d : Dev) : Dev :=
  match (d.heads.get p).holdTs with
  | none => d
  | some t =>
    if !d.operating || !d.portOn p || !d.past t (20 * ms) then d else
    let d := d.onHead p fun h => { h with holdTs := none, rawTh := set.th.get p, rawVh := set.vh.get p }
    let d := d.setInputs [p] set noTick d.clk.now
    ((d.checkTherm p (set.th.get p)).checkSoft p (set.th.get p)).checkVh p (set.vh.get p)

/-- A port reset: the shifting, latch and readback state, the strobe guard's kill input and the thermal model of one
port. -/
def Dev.portReset (d : Dev) (p : Fin 4) : Dev :=
  let d := d.onHead p fun h => { h with
    stopped := false, vhHighOn := false, thFault := false, shiftReg := none, regPlane := 0, latch := none, latchPlane := 0
    kills := h.kills.filter fun c => c ≠ cStrobeGuard && c ≠ cVhHigh }
  d.initPort p

/-- Take a reaction out of force at its end; the last one that stopped a port resets the port before it fires again. -/
def Dev.concludeReact (d : Dev) (r : React) : Dev :=
  let d := d.endReact r
  let p := fin4Of (if stopsPort r.code then r.sub else r.port)
  if (r.sev == .stopPort || stopsPort r.code) && (d.heads.get p).stopped &&
      !(d.flt.active.any fun x => (x.sev == .stopPort || stopsPort x.code) && x.started && (if stopsPort x.code then x.sub else x.port) = p.val)
  then d.portReset p else d

/-- PORT_RESET: 100 ms after the condition of a STOP_PORT ended. -/
def portReset (p : Fin 4) (d : Dev) : Dev :=
  if !d.operating then d else
  match d.flt.active.find? fun r => r.sev == .stopPort && r.port == p.val && d.mayEnd r with
  | some r => d.concludeReact r
  | none => d

/-- REACTION_END: the reaction named reaches its end rule. -/
def reactionEnd (seq : W32) (d : Dev) : Dev :=
  if !d.operating then d else
  match d.flt.active.find? fun r => r.seq == seq && d.mayEnd r with
  | some r => d.concludeReact r
  | none => d

/-- DELAY_MONITOR: every slice's margin is measured (R554, R556). -/
def delayMonitor (margin : Quad (BitVec 16)) (d : Dev) : Dev := if d.awake then d.sliceMargins margin else d

/-! ## The commands -/

/-- PLL_LOCK. -/
def execPllLock (s : State) : Host.Outcome State Fault Refusal :=
  .next { s with dev := (pllLock s.dev).finish }
/-- PLL_UNLOCK. -/
def execPllUnlock (s : State) : Host.Outcome State Fault Refusal :=
  .next { s with dev := (pllUnlock s.dev).finish }
/-- PLL_RELOCK_TIMEOUT. -/
def execPllRelockTimeout (s : State) : Host.Outcome State Fault Refusal :=
  .next { s with dev := (pllTimeout s.dev).finish }
/-- RAMP_STEP. -/
def execRampStep (x : Dom) (s : State) : Host.Outcome State Fault Refusal :=
  .next { s with dev := (rampStep x s.dev).finish }
/-- CLK_FORCED. -/
def execClkForced (x : Dom) (s : State) : Host.Outcome State Fault Refusal :=
  .next { s with dev := (clkForced x s.dev).finish }
/-- CLKIN_LOST. -/
def execClkinLost (s : State) : Host.Outcome State Fault Refusal :=
  .next { s with dev := (clkinLost s.dev).finish }
/-- CLKIN_RESTORED. -/
def execClkinRestored (s : State) : Host.Outcome State Fault Refusal :=
  .next { s with dev := (clkinRestored s.dev).finish }
/-- SEQ_WATCHDOG. -/
def execSeqWatchdog (q : Sequencer) (step : W32) (s : State) : Host.Outcome State Fault Refusal :=
  .next { s with dev := (seqWatchdog q step s.dev).finish }
/-- FIRING_HOLD_END. -/
def execFiringHoldEnd (p : Fin 4) (set : SampleSet) (s : State) : Host.Outcome State Fault Refusal :=
  .next { s with dev := (firingHoldEnd p set s.dev).finish }
/-- PORT_RESET. -/
def execPortReset (p : Fin 4) (s : State) : Host.Outcome State Fault Refusal :=
  .next { s with dev := (portReset p s.dev).finish }
/-- REACTION_END. -/
def execReactionEnd (seq : W32) (s : State) : Host.Outcome State Fault Refusal :=
  .next { s with dev := (reactionEnd seq s.dev).finish }
/-- DELAY_MONITOR. -/
def execDelayMonitor (margin : Quad (BitVec 16)) (s : State) : Host.Outcome State Fault Refusal :=
  .next { s with dev := (delayMonitor margin s.dev).finish }
/-- SLEEP_REQUEST. -/
def execSleepRequest (s : State) : Host.Outcome State Fault Refusal :=
  .next { s with dev := (sleepRequest s.dev).finish }
/-- DOZE_ENTRY. -/
def execDozeEntry (s : State) : Host.Outcome State Fault Refusal :=
  .next { s with dev := (dozeEntry s.dev).finish }
/-- DORMANT_ENTRY. -/
def execDormantEntry (s : State) : Host.Outcome State Fault Refusal :=
  .next { s with dev := (dormantEntry s.dev).finish }
/-- WAKE. -/
def execWake (cause : WakeCause) (s : State) : Host.Outcome State Fault Refusal :=
  .next { s with dev := (wake cause s.dev).finish }

end Sys2Proof.Machine
end

