-- ==== Sys2Proof/Machine/Boot.lean ====
section
/-! DEFINITION. The reset sequence: straps, SET pins, head cards, vintage, press slices, READY (R43 to R79, R111, R160 to
R162, R247, R283 to R287, R327 to R329, R480 to R483, R517, R518, R555, R633). -/

namespace Sys2Proof.Machine

/-! ## The two hard resets (R517, R604) -/

/-- POWER_ON_RESET, up to its release. -/
def powerOnReset (d : Dev) : Dev := d.hardReset .powerOn
/-- RESET_N, up to its release. -/
def resetN (d : Dev) : Dev := d.hardReset .resetN

/-! ## Straps (R47, R48) -/

/-- Pins that at least two of three rounds agree on. -/
def majority (f : Fin 3 → BitVec 16) : BitVec 16 := (f 0 &&& f 1) ||| (f 1 &&& f 2) ||| (f 0 &&& f 2)
/-- Pins that all three rounds agree on. -/
def unanimous (f : Fin 3 → BitVec 16) : BitVec 16 := f 0 &&& f 1 &&& f 2

/-- The levels decided from three rounds; a pair of readings that goes against the pulls agrees with no class. -/
def Pers.decideStraps (p : Pers) (rs : List (BitVec 16 × BitVec 16)) : Pers :=
  let r (i : Fin 3) := rs.getD i.val (0, 0)
  let high (i : Fin 3) : BitVec 16 := (r i).1 &&& (r i).2
  let low (i : Fin 3) : BitVec 16 := ~~~ (r i).1 &&& ~~~ (r i).2
  let flt (i : Fin 3) : BitVec 16 := (r i).1 &&& ~~~ (r i).2
  { p with
    rounds := [], high := majority high, float := majority flt
    undecided := ~~~ (majority high ||| majority flt ||| majority low)
    noisy := (unanimous high ||| unanimous flt ||| unanimous low) != 0xFFFF#16, strapsDone := true }

/-- STRAP_ROUND. After the third round the levels are decided and the pulls go off (R45); a chip that is not a twin
secondary drives its outputs. An error of the straps pulls FAULT_N low at once (R78). -/
def strapRound (up down : BitVec 16) (d : Dev) : Dev :=
  if d.sys.phase != .straps || !d.clk.clkinOk then d else
  let rs := d.pers.rounds ++ [(up, down)]
  if rs.length < 3 then { d with pers.rounds := rs } else
  let d := { d with pers := { d.pers.decideStraps rs with pulls := false } }
  let d := { d with sys.phase := if d.clk.locked then .settling else .locking, link.driving := decide (d.role ≠ 2) }
  if d.strapFault.isSome then d.faultLow else d

/-! ## SET pins (R56, R58, R59) and axis sense pins (R327, R328) -/

/-- First codes of bins 0 to 15 and of OPEN. -/
def setFirst : List Nat := [40, 53, 71, 94, 125, 167, 222, 296, 395, 525, 701, 935, 1246, 1662, 2217, 2955, 3942]
/-- Nominal voltages of bins 0 to 15 in 0.1 mV. -/
def setNominal : List Nat := [200, 266, 356, 474, 632, 844, 1124, 1500, 2000, 2660, 3560, 4740, 6320, 8440, 11240, 15000]

/-- State of a raw reading: 0 to 15 bin, 16 SHORT, 17 OPEN. -/
def setStateOf (raw : Nat) : Nat :=
  match (setFirst.filter (· ≤ raw)).length with | 0 => 16 | n + 1 => if n = 16 then 17 else n

/-- MARGIN: within 0.96 to 1.04 of a boundary, which between two bins is the geometric mean of their nominal codes. -/
def setMargin (raw : Nat) : Bool :=
  let near (b : Nat) : Bool := 96 * b ≤ 100 * raw && 100 * raw ≤ 104 * b
  let between (i : Nat) : Bool :=
    let xy := setNominal.getD i 0 * setNominal.getD (i + 1) 0 * (4096 * 4096)
    let q := raw * raw * (18000 * 18000) * 10000
    9216 * xy ≤ q && q ≤ 10816 * xy
  raw < 3942 && (near 40 || near 3942 || (List.range 15).any between)

/-- Mean code of the conversions of a pin. -/
def meanCode (l : List Adc) : Nat := meanOf (l.map (·.toNat))

/-- A SET pin decoded from its conversions. -/
def setPinOf (l : List Adc) : SetPin :=
  let raw := meanCode l
  { raw := BitVec.ofNat 12 raw, state := BitVec.ofNat 5 (setStateOf raw), margin := setMargin raw }

/-- A sense pin: 0 shunt, 1 tied high, 2 undecided. -/
def senseOf (l : List Adc) : Nat :=
  let mv := (l.map (·.toNat)).foldl (· + ·) 0 * 1800
  let n := l.length * 4096
  if 1200 * n < mv then 1 else if mv < 200 * n then 0 else 2

/-- Configuration code of an axis. -/
def axisCode (noMotion last : Bool) (a b : Nat) : Nat :=
  if noMotion then 5 else
  match a, b with
  | 0, 0 => 1
  | 0, 1 => if last then 2 else 3
  | 1, 1 => 0
  | _, _ => 4

/-! ## Personality errors (R48, R77, R80) -/

/-- The first error found in the order of R77, as cause and pin. -/
def Dev.persFault (d : Dev) : Option (Nat × Nat) :=
  match d.strapFault with
  | some x => some x
  | none =>
    if d.setState 10 = 16 then some (4, 0x1A)
    else if d.setState 11 = 16 && d.uartMode ≠ 0 then some (4, 0x1B)
    else if d.noMotion && d.tickSource = 0 then some (5, 0x18)
    else none

/-! ## Head cards and port blocks (R61 to R64, R72 to R74, R285, R286) -/

/-- The geometries of R61: dots, resolution, lanes, strobes, maximum head clock. -/
def geometries : List (Nat × Nat × Nat × Nat × Nat) :=
  [(384, 203, 1, 2, 12), (576, 203, 1, 3, 12), (640, 203, 2, 4, 12), (832, 203, 2, 4, 12), (1280, 300, 2, 4, 25),
   (1728, 203, 4, 6, 25), (2560, 300, 4, 8, 25), (2048, 203, 8, 8, 25), (3456, 300, 8, 8, 25), (4096, 300, 8, 8, 25),
   (4096, 300, 16, 8, 50), (2560, 600, 8, 8, 25), (4096, 600, 16, 8, 50), (832, 300, 2, 4, 12), (1024, 203, 2, 4, 12),
   (4096, 203, 16, 8, 50)]

/-- Whether the bytes of a card that answered make it valid (R285, R286). -/
def cardValid (c : List Byte) : Bool :=
  let rng (off n lo hi : Nat) : Bool := lo ≤ le c off n && le c off n ≤ hi
  192 ≤ c.length && le c 0 4 == 0x4153524A && le c 4 1 == 1 && le c 6 2 == 192 + 4 * le c 0x25 1 && rng 8 2 1 4096 &&
    [1, 2, 4, 8, 16].contains (le c 0x0C 1) && rng 0x0D 1 1 8 && rng 0x0E 1 1 50 && rng 0x0F 1 0 1 && rng 0x10 2 1 4095 &&
    rng 0x12 2 1 4096 && rng 0x14 2 1 4095 && rng 0x18 2 0 4095 && rng 0x1A 2 500 3600 && bits (le c 0x1C 1) 2 1 ≠ 3 &&
    rng 0x20 2 100 65535 && rng 0x22 2 2000 6000 && rng 0x24 1 0 32 && rng 0x25 1 0 96 &&
    le c 0x3C 4 == (crc32c (c.take 0x3C ++ zeros 4 ++ (c.drop 0x40).take 128)).toNat

/-- First dots of a card's strobe groups. -/
def cardGroups (c : List Byte) : List Nat := (halves c 0x28 (le c 0x0D 1)).map (· % 4096)

/-- Whether a list starts at 0 and rises strictly, below a bound. -/
def risesBelow (n : Nat) : List Nat → Bool
  | [] => true
  | [a] => decide (a < n)
  | a :: b :: rest => decide (a < b) && risesBelow n (b :: rest)

/-- Whether a valid card's geometry is out of range under a peak-dot cap (R74, R286). -/
def cardOut (c : List Byte) (cap : Nat) : Bool :=
  let dots := le c 8 2
  let lanes := le c 0x0C 1
  let gs := cardGroups c
  let segs := words c 0x40 (le c 0x24 1)
  dots % lanes != 0 || gs.headD 0 != 0 || !risesBelow dots gs ||
    ((gs.zipIdx).any fun x => cap + x.1 < gs.getD (x.2 + 1) dots) ||
    (!segs.isEmpty && (segs.any (segBad dots lanes) || !covers dots lanes segs))

/-- Ceiling and cap of a bin of SET(4 + n) (R63). -/
def limitsOf (b : Nat) : Nat × Nat := ([480, 720, 1080, 1620].getD (b / 4) 0, [512, 1024, 2048, 4096].getD (b % 4) 0)

/-- The port block decided from the SET pins and the card's bytes (R61 to R64, R72 to R74). Where several causes hold at
once the rules give no order; the cause shown is NO_GEOMETRY, then CARD_CONFLICT, then CEILING_RESERVED, then
CARD_OUT_OF_RANGE (DESIGN CHOICE, log entry 119). -/
def Dev.decidePort (d : Dev) (p : Fin 4) : PortPers :=
  let g := d.setState p.val
  let l := d.setState (4 + p.val)
  let img := (d.pers.cards.get p).image
  let card := img.filter cardValid
  let status := match img, card with | none, _ => 0 | some _, none => 2 | _, some _ => 1
  let off (cause st : Nat) : PortPers := { cause := cause, cardStatus := st }
  if g = 16 then off 1 0
  else if g = 17 && card.isNone then off 2 status
  else
    let strap := geometries.getD g (0, 0, 0, 0, 0)
    let conflict := match card with
      | some c => g < 16 && (strap.1 ≠ le c 8 2 || strap.2.2.1 ≠ le c 0x0C 1 || strap.2.2.2.1 ≠ le c 0x0D 1)
      | none => false
    if conflict then off 3 3
    else if l = 16 then off 4 status
    else
      let geo := match card with
        | some c => if g = 17 then (le c 8 2, le c 0x0A 2, le c 0x0C 1, le c 0x0D 1, le c 0x0E 1) else strap
        | none => strap
      let own := limitsOf (if l = 17 then 0 else l)
      let lim : Nat × Nat × Nat := match card with
        | some c =>
          let k : Nat × Nat := (le c 0x10 2, le c 0x12 2)
          if l = 17 then (k.1, k.2, 1)
          else if k.1 < own.1 || k.2 < own.2 then (min own.1 k.1, min own.2 k.2, 2) else (own.1, own.2, 0)
        | none => (own.1, own.2, if l = 17 then 3 else 0)
      if (card.map fun c => cardOut c lim.2.1).getD false then off 5 3
      else
        { active := true, geomSrc := b2n (g == 17), limitSrc := lim.2.2, dots := geo.1, resolution := geo.2.1, lanes := geo.2.2.1
          strobes := geo.2.2.2.1, maxClk := if d.slow then min geo.2.2.2.2 25 else geo.2.2.2.2, cardStatus := status
          ceiling := lim.1, peakDots := lim.2.1 }

/-- Every port block and the digest, from what is known of the cards. -/
def Dev.decidePorts (d : Dev) : Dev :=
  let d := { d with pers.ports := d.pers.ports.mapIdx fun p _ => d.decidePort p }
  { d with pers.digest := d.persDigest }

/-- The personality is final (R45, R46): the serial port takes its rate, and a twin primary sends its card images (R585). -/
def Dev.finishPers (d : Dev) : Dev :=
  let d := d.decidePorts
  let d := { d with
    pers := { d.pers with valid := true, cardsDone := true }
    sys.phase := .vintage
    uart := { d.uart with rate := if d.uartMode = 0 then 0 else d.uartLow, ude := d.uartMode == 1 } }
  if d.role ≠ 1 then d else
  let d := fin4.foldl (init := d) fun (d : Dev) p =>
    match (d.pers.cards.get p).image with
    | some b => d.sendContent (0x80 + p.val) b false
    | none => d.sendContent (0x80 + p.val) [] true
  { d with link.imagesSent := true }

/-- Whether a port's card is read (R72). -/
def Dev.readsCard (d : Dev) (p : Fin 4) : Bool := d.setState p.val != 16

/-- Every card read has ended. -/
def Dev.cardsRead (d : Dev) : Bool := fin4.all fun p => !d.readsCard p || (d.pers.cards.get p).read

/-- SET_PIN_MEASURE: the sources go off (R60), and the device fields become final, or the personality error holds the
device (R77, R78). -/
def setPinMeasure (codes sense : List (List Adc)) (d : Dev) : Dev :=
  if d.sys.phase != .settling || !d.clk.clkinOk || !d.clk.locked then d else
  let d := { d with pers := { d.pers with
    sets := (List.range 12).map fun i => setPinOf (codes.getD i []), sources := false, setsDone := true } }
  let kind (i : Nat) : Nat := senseOf (sense.getD i [])
  let d := { d with
    pers := { d.pers with
      axisCfg := d.pers.axisCfg.mapIdx fun x _ => axisCode d.noMotion (x.val == 3) (kind (2 * x.val)) (kind (2 * x.val + 1))
      senseRaw := (List.range 8).map fun i => BitVec.ofNat 12 (meanCode (sense.getD i [])) } }
  match d.persFault with
  | some (cause, pin) =>
    let d := d.decidePorts
    { d with sys.phase := .personalityError, pers := { d.pers with error := true, cause := cause, pin := pin } }.faultLow
  | none =>
    let d := { d with sys.phase := .cards }
    if d.role ≠ 2 && d.cardsRead then d.finishPers else d

/-- HEAD_CARD_READ_DONE: the bytes read, none for a card that did not answer or whose read did not end in time. -/
def headCardReadDone (p : Fin 4) (image : Option (List Byte)) (d : Dev) : Dev :=
  if d.sys.phase != .cards || !d.clk.clkinOk || d.role == 2 || !d.readsCard p || (d.pers.cards.get p).read then d else
  let d := { d with pers.cards := d.pers.cards.set p { read := true, image := image } }
  if d.cardsRead then d.finishPers else d

/-- CARD_IMAGE_TIMEOUT: a twin secondary to which no image has come takes every card as absent (R76). -/
def cardImageTimeout (d : Dev) : Dev :=
  if d.sys.phase != .cards || !d.clk.clkinOk || d.role ≠ 2 || d.link.images.toList.any (fun x => x.2.1 || x.2.2) then d
  else { d with pers.cards := Quad.all { read := true } }.finishPers

/-! ## The vintage (R480 to R483, R111, R476) -/

/-- Fields of 12 bits, two in three bytes. -/
def fields12 : List Byte → List Nat
  | a :: b :: c :: rest => (a.toNat + 256 * (b.toNat % 16)) :: (b.toNat / 16 + 16 * c.toNat) :: fields12 rest
  | _ => []

/-- A port's resistance fields and grown entries from their records. -/
def Head.loadTaste (h : Head) (res grown : List Byte) : Head :=
  { h with
    dots := ((fields12 res).zipIdx).filterMap fun (r, i) => if r = 0 then none else some (i, mkWord 0 0 r)
    grown := (words grown 0 (grown.length / 4)).map eDot }

/-- Take a section back and zero-fill it (R111). -/
def Dev.clearSec (d : Dev) (n : Nat) : Dev := (d.setSec n false).poke (secAddr n) (zeros (secSpan n))

/-- Fill a section from its record; media section 0 of a vintage without slot 0 takes the factory profile (R111, R481). -/
def Dev.loadSec (d : Dev) (n : Nat) (image : List Byte) : Dev :=
  let slot := secIndex n
  if !image.isEmpty then d.fillFrom n slot image
  else if n = 16 then d.fillFrom n slot factorySlot
  else d.clearSec n

/-- Load a vintage's content: resistances, grown entries, sections, the ageing ledger (R481). -/
def Dev.loadContent (d : Dev) (content : Nat → List Byte) : Dev :=
  let d := d.each4 fin4 fun p d => d.onHead p fun h => h.loadTaste (content p.val) (content (4 + p.val))
  let d := (List.range 28).foldl (init := d) fun (d : Dev) n => d.loadSec n (content (recOf (secType n) (secIndex n) (secIndex n)))
  -- an empty ledger has its version alone
  { d with age.ledger := ledgerPutAll [] 0 (if (content 64).isEmpty then [1] else (content 64).take 4096) }

/-- The record numbers read at reset that needed correction (R494). -/
def Dev.correctedAtReset (d : Dev) : List Nat :=
  (List.range 65).filter fun i => match d.readRecord i with | .content _ soft => soft | _ => false

/-- What the vintage in use holds of a record. -/
def Dev.contentOf (d : Dev) (i : Nat) : List Byte := match d.readRecord i with | .content b _ => b | _ => []

/-- A valid card's rank and resistance against the ledger's (R555). HEAD_CHANGED has no value, baseline or limit in the manual:
free values. -/
def Dev.headChanged (d : Dev) (p : Fin 4) : Dev :=
  match d.card p with
  | none => d
  | some c =>
    let a := 0x40 + 64 * p.val
    let rank := le c 0x16 1
    let nom := le c 0x14 2
    if d.led a 1 = rank && d.led (a + 2) 2 = nom then d else
    let (v, d) := d.drawFree
    let (b, d) := d.drawFree
    let (l, d) := d.drawFree
    let d := { d with age.ledger := ledgerPutAll d.age.ledger (a + 4) (zeros 16) }
    let d := ((d.ledSet a 1 rank).ledSet (a + 1) 1 1).ledSet (a + 2) 2 nom
    d.raise { code := cHeadChanged, sev := some .note, port := p.val,
              detail := [0, BitVec.ofNat 8 p.val] ++ leBytes 4 v ++ leBytes 4 b ++ leBytes 4 l ++ zeros 6 }

/-- Merge the dead-dot tables of the ports that are on, and look for changed heads, at the end of vintage selection
(R186, R555). -/
def Dev.afterLoad (d : Dev) : Dev :=
  let d := d.each4 (fin4.filter d.portOn) fun p d => (d.remerge none p).2
  d.each4 fin4 fun p d => d.headChanged p

/-- Which vintage is used, and what is said about it (R475, R480, R482, R483, R55). -/
def Dev.chooseVintage (d : Dev) : Dev :=
  let table := d.cel.table.isSome
  let d := { d with cel := { d.cel with tableOk := table, inUse := false, defaults := false, vintage := 0 } }
  let defaults (a b : Nat) (d : Dev) : Dev :=
    { d with cel.defaults := true }.raise
      { code := cCellarDefaults, sev := some .note, detail := cellarDetail 0 0 0xFF 0xFF 0xFFFF (a + 4 * b) 0 0 }
  if d.factoryOnly then d
  else if !table then defaults 2 2 d
  else
    match d.cel.newest with
    | none => defaults ((d.cel.bankState false).getD 0) ((d.cel.bankState true).getD 0) d
    | some b =>
      let c := d.cel
      let d := { d with cel := { c with inUse := true, bankB := b, vintage := BitVec.ofNat 32 (c.number b) } }
      match c.head (!b) with
      | none => d
      | some h =>
        if c.number b < c.number (!b) && (c.bankState (!b)).isSome then
          let bad := if c.headsDiffer (!b) then 0xFF else (c.firstBad (!b) h).getD 0xFF
          d.raise { code := cVintageFallback, sev := some .note,
                    detail := cellarDetail (c.number (!b)) (c.number b) (b2n (!b)) bad 0xFFFF 0 0 0 }
        else d

/-- VINTAGE_SELECTION_DONE. -/
def vintageDone (d : Dev) : Dev :=
  if d.sys.phase != .vintage || !d.clk.clkinOk then d else
  let d := d.chooseVintage
  let d := d.correctedAtReset.foldl (init := d) fun (d : Dev) i => d.corrected i
  let d := (d.loadContent d.contentOf).afterLoad
  { d with sys.phase := .selfTest }

/-! ## The records before READY (R160, R162, R287, R329, R586) -/

/-- SESSION_START. -/
def Dev.sessionStart (d : Dev) : Dev :=
  let kind : Byte := match d.sys.resetKind with | .powerOn => 0 | .resetN => 1 | .safety => 2
  let detail : List Byte := [kind, 0] ++ leBytes 2 d.sys.haltCode.toNat ++ leBytes 4 d.cel.vintage.toNat ++ leBytes 4 d.sys.oldestOpen.toNat ++
    leBytes 4 d.sys.lastAdmitted.toNat
  (d.event { code := cSessionStart, sev := none, detail := detail } (32 * b2n d.cel.defaults) 0 0 .never).2

/-- The FAULT record that restates a HALT. -/
def Dev.restate (d : Dev) : Dev :=
  if d.sys.resetKind != .safety then d else
  let d := d.ledAdd 16 4 1
  let (seq, d) := d.make .fault 0x82 d.sys.haltFlags d.sys.haltPorts d.sys.haltTag d.sys.haltCode d.clk.now d.clk.tickNo d.sys.haltBody
  { d.tally d.sys.haltCode with rings := { d.rings with openFaults := d.rings.openFaults ++ [seq] } }

/-- AXIS_CONFIG. -/
def Dev.axisConfig (d : Dev) : Dev :=
  d.report { code := cAxisConfig, sev := none,
             detail := (d.pers.axisCfg.toList.map fun n => BitVec.ofNat 8 n) ++ (d.pers.senseRaw.map fun c => leBytes 2 c.toNat).flatten }

/-- CARD_DEAD_LIST of a port, on or off, with a valid card whose factory entries are not used (R287). -/
def Dev.cardDeadList (d : Dev) (p : Fin 4) : Dev :=
  match d.card p with
  | none => d
  | some c =>
    let n := le c 0x25 1
    let unread := d.slow && decide (16 < n)
    if (!unread && le c 0x38 4 == (crc32c ((c.drop 0xC0).take (4 * n))).toNat) then d else
    d.report { code := cCardDeadList, sev := some .note, lvl := .port, port := p.val, ports := 2 ^ p.val,
               detail := headDetail noTick 0 0 n (if unread then 2 else 1) 0 }

/-- SESSION_START and the records that follow it (R517 step 6). -/
def Dev.openSession (d : Dev) : Dev :=
  let first (r : Rise) : Bool := r.code == cTwinDigestDiffers
  let early := d.sys.early
  let d := { d with sys.early := early.filter first }.sessionStart.restate.raiseEarly.axisConfig
  let d := d.each4 fin4 fun p d => d.cardDeadList p
  { d with sys.early := early.filter fun r => !first r }.raiseEarly

/-! ## Press slices and READY (R247, R517, R585, R586, R633) -/

/-- No slice has passed: the device says so and never raises READY. -/
def Dev.pressless (d : Dev) : Dev :=
  let d := { d with sys.ready := true }.openSession
  let d := d.raise { code := cPressFailed, sev := some .stopDevice, lvl := .device, detail := pressDetail 0xFF 0 noTick 0 0 0 0 }
  { d with sys.ready := false }

/-- A slice as the self-test leaves it; a failing one starts fenced. -/
def Dev.testSlice (d : Dev) (k : Fin 4) (pass : Bool) : Dev :=
  let d := { d with line.slices := d.line.slices.set k { fenced := !pass } }
  d.ledSet (sliceAddr k + 6) 1 (if pass then 0 else 2)

/-- SLICE_FENCED of a slice that failed the self-test. -/
def Dev.testFenced (d : Dev) (k : Fin 4) : Dev :=
  if (d.line.slices.get k).fenced then
    d.raise { code := cSliceFenced, sev := some .derate, lvl := .device, detail := pressDetail k.val 0 noTick d.slicesIn 0 0 0 }
  else d

/-- The thermal models and the coil models start (R204, R431). -/
def Dev.startModels (d : Dev) : Dev := (d.each4 fin4 fun p d => d.initPort p).initCoils

/-- PRESS_SELF_TEST_DONE: failing slices start fenced, margins are measured, the models start. -/
def pressSelfTest (pass : BitVec 4) (margin : Quad (BitVec 16)) (d : Dev) : Dev :=
  if d.sys.phase != .selfTest || !d.clk.clkinOk then d else
  let d := { d with sys.phase := .almostReady }.each4 fin4 fun k d => d.testSlice k (pass.getLsbD k.val)
  let d := ((d.each4 fin4 fun k d => d.testFenced k).sliceMargins margin).startModels
  if d.slicesIn = 0 then d.pressless else d

/-- A half that is to run as a single device. -/
def Dev.solo (d : Dev) : Bool := d.role == 0 || d.link.alone || (d.link.driving && (d.link.dissolved || d.role == 2))

/-- Whether a pair may form now: the digests agree, and the secondary holds the content of the primary (R585). -/
def Dev.mayForm (d : Dev) : Bool :=
  match d.link.partner with
  | none => false
  | some i =>
    2 ≤ i.state && i.digest == d.pers.digest && !d.link.dissolved &&
      (i.content == d.contentCrc || (if d.role = 1 then d.link.recordsSent
        else (List.range 65).all fun k => d.link.records.any fun x => x.1 == k && x.2.2))

/-- Whether READY may rise. -/
def Dev.mayRise (d : Dev) : Bool :=
  d.sys.phase == .almostReady && d.clk.clkinOk && d.clk.locked && d.slicesIn ≠ 0 && (d.solo || d.mayForm)

/-- A secondary that has loaded the primary's content uses the primary's vintage (R95, R585). What it would have said of
its own choice is dropped. -/
def Dev.adoptVintage (d : Dev) (number : W32) : Dev :=
  { d with
    cel := { d.cel with vintage := number, defaults := number == 0 && !d.factoryOnly, inUse := d.cel.inUse && number != 0 }
    sys.early := d.sys.early.filter fun r => r.code != cCellarDefaults && r.code != cVintageFallback }

/-- The pair forms (R585). A secondary whose content differs loads the primary's. -/
def Dev.form (d : Dev) : Dev :=
  let l := d.link
  let d := { d with link := { l with formed := true, ownLow := d.role == 1, driving := d.role == 1, released := none, statusCrc := 0xFFFFFFFF,
                                     lineCrcs := [], echoed := [], checks := [], changes := [], queue := [], parts := [] } }
  if d.role = 2 && (l.partner.map (·.content)) != some d.contentCrc then
    ((d.loadContent fun i => ((l.records.find? fun x => x.1 == i).map (·.2.1)).getD []).afterLoad).adoptVintage
      ((l.partner.map (·.vintage)).getD 0)
  else d

/-- The slices of a formed secondary are numbered 4 to 7, and it tells the primary of them (R591). -/
def Dev.tellEarly (d : Dev) : Dev :=
  if !d.pairSecondary then d else
  let own (r : Rise) : Bool := r.code == cSliceFenced || r.code == cDelayMargin
  let renum (r : Rise) : Rise :=
    if !own r then r else
    let i := if r.code = cSliceFenced then 0 else 1
    { r with detail := patch r.detail i [r.detail.getD i 0 + 4] }
  let d := { d with sys.early := d.sys.early.map renum }
  (d.sys.early.filter own).foldl (init := d) fun (d : Dev) r =>
    d.sendEvent r.code ((r.sev.map Sev.code).getD 0) (d.scopeByte r.lvl 0) 0 noTick 0 r.detail

/-- READY_RISE: the levels of COVER and of HPn_OPEN then. -/
def readyRise (cover : Bool) (opens : Quad Bool) (d : Dev) : Dev :=
  if !d.mayRise then d else
  let d := if d.solo then { d with link.ownLow := d.role ≠ 0 } else d.form
  let d := { d with sys := { d.sys with phase := .run, ready := true } }.tellEarly.openSession
  let d := { d with media.coverPin := cover, heads := d.heads.mapIdx fun p h => { h with openPin := d.openActive p (opens.get p) } }
  let d := { d with media.cover := d.coverActive }
  d.evaluatePins

/-! ## The commands -/

/-- POWER_ON_RESET; the test logic starts anew too (PRESUMED, log 28). -/
def execPowerOnReset (s : State) : Host.Outcome State Fault Refusal :=
  .next { s with dev := (powerOnReset s.dev).finish, tap := {} }
/-- RESET_N. -/
def execResetN (s : State) : Host.Outcome State Fault Refusal :=
  .next { s with dev := (resetN s.dev).finish }
/-- STRAP_ROUND. -/
def execStrapRound (up down : BitVec 16) (s : State) : Host.Outcome State Fault Refusal :=
  .next { s with dev := (strapRound up down s.dev).finish }
/-- SET_PIN_MEASURE. -/
def execSetPinMeasure (codes sense : List (List Adc)) (s : State) : Host.Outcome State Fault Refusal :=
  .next { s with dev := (setPinMeasure codes sense s.dev).finish }
/-- HEAD_CARD_READ_DONE. -/
def execHeadCardReadDone (p : Fin 4) (image : Option (List Byte)) (s : State) : Host.Outcome State Fault Refusal :=
  .next { s with dev := (headCardReadDone p image s.dev).finish }
/-- CARD_IMAGE_TIMEOUT. -/
def execCardImageTimeout (s : State) : Host.Outcome State Fault Refusal :=
  .next { s with dev := (cardImageTimeout s.dev).finish }
/-- VINTAGE_SELECTION_DONE. -/
def execVintageSelectionDone (s : State) : Host.Outcome State Fault Refusal :=
  .next { s with dev := (vintageDone s.dev).finish }
/-- PRESS_SELF_TEST_DONE. -/
def execPressSelfTestDone (pass : BitVec 4) (margin : Quad (BitVec 16)) (s : State) : Host.Outcome State Fault Refusal :=
  .next { s with dev := (pressSelfTest pass margin s.dev).finish }
/-- READY_RISE. -/
def execReadyRise (cover : Bool) (opens : Quad Bool) (s : State) : Host.Outcome State Fault Refusal :=
  .next { s with dev := (readyRise cover opens s.dev).finish }

end Sys2Proof.Machine
end

