-- ==== Sys2Proof/Machine/Link.lean ====
section
/-! DEFINITION. The Mladlia link: frames received and sent, the ring's faults, the forming of a pair, lockstep and takeover
(R561 to R599). -/

namespace Sys2Proof.Machine

/-! ## Receiving a frame (R567, R568) -/

/-- Whether a frame's length and check word are right. -/
def frameGood (b : List Byte) : Bool :=
  12 ≤ b.length && b.length ≤ 64 && le b 4 1 + 12 == b.length &&
    le b (8 + le b 4 1) 4 == (crc32c (b.take (8 + le b 4 1))).toNat

/-- Whether a frame came from the other half of this chip's pair. -/
def Dev.fromPartner (d : Dev) (b : List Byte) : Bool := d.role ≠ 0 && le b 1 1 / 2 = d.pos && le b 1 1 ≠ d.node

/-- The chip makes use of the link: it is on a ring, LINK runs, and the personality has no error (R78). -/
def Dev.linkLive (d : Dev) : Bool := d.onRing && d.clk.clkinOk && d.clk.linkRun && !d.persError

/-- A frame accepted once per src and seq: the latest 127 numbers of each originator are remembered (log entry 27). -/
def Link.accept (l : Link) (src seq : Byte) : Link :=
  { l with seen := (src, seq) :: l.seen.filter fun x => x.1 ≠ src || (1 ≤ (seq - x.2).toNat && (seq - x.2).toNat ≤ 127) }

/-- A frame arrives: the chip's own is removed, and is delivered when it is intact; any other is forwarded, a broken one
marked so, and accepted when it is intact, new and addressed to this chip or to all. -/
def Dev.linkIn (d : Dev) (ty : Nat) (f : LinkFrame) (act : List Byte → Dev → Dev) : Dev :=
  let b := f.bytes
  if !d.linkLive || !d.link.aligned || le b 0 1 ≠ ty then d else
  let good := f.intact && frameGood b
  if le b 1 1 = d.node then
    if good then { d with link.flights := d.link.flights.filter fun x => x.bytes.getD 3 0 ≠ b.getD 3 0 } else d
  else
    let d := { d with link := { d.link with
      forwarded := (if d.link.fwdTs = d.clk.now then d.link.forwarded else []) ++ [(b, good)], fwdTs := d.clk.now } }
    let src := b.getD 1 0
    let mine := le b 2 1 = d.node || le b 2 1 = 0xFF
    if !good || !mine || d.link.seen.contains (src, b.getD 3 0) then d else
    let d := { d with link := { d.link.accept src (b.getD 3 0) with lastFrameTs := if d.fromPartner b then d.clk.now else d.link.lastFrameTs } }
    act b d

/-- Twelve-bit codes packed in pairs. -/
def unpack12 (b : List Byte) (off : Nat) : Nat → List Adc
  | 0 => []
  | 1 => [BitVec.ofNat 12 (le b off 2)]
  | n + 2 => BitVec.ofNat 12 (le b off 3) :: BitVec.ofNat 12 (le b off 3 / 4096) :: unpack12 b (off + 3) n

/-- Four codes of a list, from i on. -/
def quadAt (l : List Adc) (i : Nat) : Quad Adc := ⟨l.getD i 0, l.getD (i + 1) 0, l.getD (i + 2) 0, l.getD (i + 3) 0⟩
/-- Eight codes of a list. -/
def octAt (l : List Adc) : Oct Adc :=
  ⟨l.getD 0 0, l.getD 1 0, l.getD 2 0, l.getD 3 0, l.getD 4 0, l.getD 5 0, l.getD 6 0, l.getD 7 0⟩

/-! ## TICK frames (R570, R573, R577 to R579, R588, R590) -/

/-- Whether this chip follows a frame's sender: a formed secondary its primary, a member the stack master. -/
def Dev.follows (d : Dev) (b : List Byte) : Bool :=
  if d.pairSecondary then d.fromPartner b else d.isMember && le b 1 1 / 2 = 0

/-- The times of the latest line are those of the frame (R573): t_last of the ports that fire it, and with it the planned
time of the next (R199, R216, R588). -/
def Dev.setTickTs (d : Dev) (ts : Ts) : Dev :=
  let own := d.clk.tickTs
  let d := { d with
    line.planned := if (d.line.band.map fun (b : BandRt) => b.lastTick == d.clk.tickNo && 0 < b.next).getD false then d.line.planned + (ts - own) else d.line.planned
    heads := d.heads.mapIdx fun _ h => if h.tLast = some own then { h with tLast := some ts } else h }
  let fix (b : BandRt) : BandRt :=
    if b.lastTick ≠ d.clk.tickNo || b.next = 0 then b
    else { b with lastTs := ts, firstTs := if b.firstTick = d.clk.tickNo then ts else b.firstTs }
  { d with clk := { d.clk with tickTs := ts }, line := { d.line with band := d.line.band.map fix } }

/-- This chip's edge is compared with the master's, both as the tick's two edges give them (R574). -/
def Dev.compareEdges (d : Dev) (ts : Ts) (fine : Nat) : Dev :=
  if !d.wired then d else
  let s := 10 * signed 48 (d.clk.tickTs - ts).toNat + ((d.link.edge.val : Int) - fine)
  { d with link.skew := s, link.skewRun := if 5 < s.natAbs then d.link.skewRun + 1 else 0 }

/-- P of the other half, as a frame or a record of it says: slices leave service and none comes back before a reset (R238,
R246). -/
def Link.fewer (l : Link) (n : Nat) : Option Nat := some (match l.partnerSlices with | some m => min m n | none => n)

/-- The sample set that a TICK frame carries. -/
def tickCodes (b : List Byte) : SampleSet :=
  let tv := unpack12 b 0x1E 8
  { th := quadAt tv 0, vh := quadAt tv 4, ms := octAt (unpack12 b 0x2A 8) }

/-- STOP at a member with a band in progress: DATA_LATE for its own band. The line that the master stops at is not in the
frame: its field is a free value (R578). -/
def Dev.memberStop (d : Dev) : Dev :=
  match d.line.band with
  | none => d
  | some b =>
    if b.phase != .firing then d else
    let (v, d) := d.drawFree
    let d := { d with line.band := some { b with pauseCause := cDataLate, pauseRef := 0 } }
    d.report {
      code := cDataLate, job := rJob b.raw, ports := rMask b.raw
      detail := leBytes 6 d.clk.tickNo.toNat ++ leBytes 4 v ++ leBytes 4 (b.lacks.getD 0xFFFFFFFF) }

/-- What the master's line tick brings to a member: its period and its flags (R573, R577, R578). -/
def Dev.memberTick (d : Dev) (ts : Ts) (period : Nat) (stop noLine before : Bool) : Dev :=
  let d := { d with line := { d.line with period := period, planned := ts + BitVec.ofNat 48 period } }
  let d := if stop && !before then d.memberStop else d
  if !noLine then d else
  { d with line.band := d.line.band.map fun (b : BandRt) => if b.phase == .firing && !b.fromRest then { b with restAfter := some b.next } else b }

/-- TICK frame of kind 0. -/
def Dev.tickLine (d : Dev) (b : List Byte) : Dev :=
  let flags := le b 9 1
  let ts : Ts := BitVec.ofNat 48 (le b 0x0A 6)
  let period := le b 0x10 4
  let no : Ts := BitVec.ofNat 48 (le b 0x18 6)
  let before := (d.link.tick.map (·.stop)).getD false
  let info : TickInfo := { ts := ts, tick := no, period := period, stop := bit flags 0, rest := bit flags 1, noLine := bit flags 2 }
  let d := { d with link := { d.link with tick := some info, partnerSlices := if d.fromPartner b then d.link.fewer (le b 0x36 1) else d.link.partnerSlices } }
  let d := if no = d.clk.tickNo then (d.compareEdges ts (le b 0x37 1)).setTickTs ts else d
  let d := if d.isMember && !d.pairSecondary then
      let d := d.memberTick ts period info.stop info.noLine before
      if no = d.clk.tickNo && !d.line.sampled then d.pressAhead else d
    else d
  if d.pairSecondary && no = d.clk.tickNo && d.line.sampled then d.tickSet (tickCodes b) else d

/-- TICK frame of kind 1: a start or resume set. A member answers with its plan. -/
def Dev.tickStart (d : Dev) (b : List Byte) : Dev :=
  let ts : Ts := BitVec.ofNat 48 (le b 0x0A 6)
  let info : TickInfo := { ts := ts, tick := BitVec.ofNat 48 (le b 0x18 6), period := 0, stop := false, rest := false, noLine := false }
  let d := { d with link := { d.link with tick := some info, partnerSlices := if d.fromPartner b then d.link.fewer (le b 0x36 1) else d.link.partnerSlices } }
  let d := if d.pairSecondary && d.line.startTs.isSome then d.startSet (tickCodes b) ts else d
  d.sendPlan

/-- TICK frame of kind 2: a round of the primary's conversions and counts. -/
def Dev.tickRound (d : Dev) (b : List Byte) : Dev :=
  if !d.pairSecondary then d else
  let ms := unpack12 b 0x18 8
  let d := if ms.all (· == 0) then d else d.senseRound (d.roundAt (BitVec.ofNat 48 (le b 0x0A 6))) (octAt ms)
  let sc := unpack12 b 0x24 9
  let d := d.adcbRound (sc.take 8) (sc.getD 8 0)
  let m := signed 32 (le b 0x32 4)
  let a := signed 32 (le b 0x36 4)
  let d := if m = d.mot.menc then d else d.counted m
  if a = d.mot.aenc then d else d.auxCounted a

/-- Offset of an item's owner byte (R570). -/
def itemAddr (item : Nat) : Nat :=
  let n := item % 0x4000
  match item / 0x4000 with | 0 => jobSlot n | 1 => statusSlot n | 2 => poolBlock n | _ => secAddr n

/-- One change of the primary's window acts at the secondary: an owner byte, or the result of a block's check (R105, R118). -/
def Dev.windowChange (d : Dev) (c : W32 × Nat × Nat) : Dev :=
  let a := itemAddr c.2.1
  if c.2.2 = 0 then (if d.owns a then d.poke a [0] else d) else
  let n := c.2.1 % 0x4000
  let good := decide (c.2.2 = 1)
  let bad := d.blockFault n
  let own := match d.link.checks.find? fun x => x.1 == n with | some x => x.2 | none => bad.isNone
  let d := { d with link := { d.link with checks := d.link.checks.filter fun x => x.1 ≠ n }, win := { d.win with handed := d.win.handed.filter (· ≠ n) } }
  if own ≠ good then d.dissolve 4 0 noTick d.port.writeCount.toNat
  else d.blockResult n (if good then none else some (bad.getD cBlockCrc))

/-- The changes whose write has been applied act, in order (R590). -/
def Dev.applyChanges (d : Dev) : Dev :=
  let now := d.link.changes.filter fun c => c.1 == d.port.writeCount
  let d := { d with link := { d.link with changes := d.link.changes.filter fun c => c.1 ≠ d.port.writeCount } }
  now.foldl (fun d c => if d.link.formed then d.windowChange c else d) d

/-- TICK frame of kind 3: a change for a write already passed is a divergence (R590). -/
def Dev.tickChanges (d : Dev) (b : List Byte) : Dev :=
  if !d.pairSecondary then d else
  let all := (List.range (min (le b 0x18 1) 5)).map fun i =>
    let o := 0x19 + 7 * i
    ((BitVec.ofNat 32 (le b o 4) : W32), le b (o + 4) 2, le b (o + 6) 1)
  match all.find? fun c => laterSeq d.port.writeCount c.1 with
  | some c => d.dissolve 5 0 noTick c.1.toNat
  | none => { d with link := { d.link with changes := d.link.changes ++ all } }.applyChanges

/-- TICK frame of kind 4: a member's media position is the master's; its ribbon axes, and in TANDEM mode its AX0, take the
scaled travel (R579). -/
def Dev.tickSegment (d : Dev) (b : List Byte) : Dev :=
  if !d.isMember || le b 1 1 / 2 ≠ 0 then d else
  let dx := signed 32 (le b 0x22 4)
  let lm := max (le b 0x2E 4) 1
  let m := d.mediaSec d.mot.curMedia
  let li := max (eRatio (mAxis m 0)) 1
  let x0 := d.link.masterPos.getD 0
  let x1 := x0 + dx
  let scaled (x : Int) : Int := (x * li).fdiv lm
  let dp := scaled x1 - scaled x0
  let speed (v : Nat) : Nat := v * li / lm
  let seg : Seg := { dpos := dp.natAbs, t := le b 0x1E 4, v0 := speed (le b 0x26 4), vEnd := speed (le b 0x2A 4), fwd := decide (0 ≤ dx), told := some 0 }
  let d := { d with
    link := { d.link with masterPos := some x1 }
    mot := { d.mot with bound := (x1 * 4194304).fdiv lm, l0 := li } }
  -- an axis that is off stays off (R66, R324)
  let on (x : Fin 4) (want : Bool) (d : Dev) : Dev := if want && !d.axisOff x && !(d.axes.get x).energised then energise x (mAxis m x.val) d else d
  let d := on 2 (engaged (mAxis m 2)) (on 1 (engaged (mAxis m 1)) (on 0 (d.mode = 3) d))
  let d := if d.axes.a.segs.isEmpty then d.startSegs 0 (BitVec.ofNat 50 (4 * le b 0x18 6)) else d
  if seg.dpos = 0 then d else d.onAxis 0 fun a => { a with segs := a.segs ++ [seg] }

/-- A half that leaves a reset while its partner runs does not rejoin (R598). -/
def Dev.shutOut (d : Dev) : Dev :=
  if d.role = 0 || d.sys.phase == .run then d else { d with link := { d.link with dissolved := true, driving := false, alone := false } }

/-- An accepted TICK frame. -/
def Dev.tickIn (b : List Byte) (d : Dev) : Dev :=
  let d := if le b 1 1 / 2 = 0 then { d with link.tickHeard := d.clk.now } else d
  if d.fromPartner b && d.sys.phase != .run then d.shutOut
  else if !d.operating || !d.follows b then (if d.operating && le b 8 1 = 4 then d.tickSegment b else d)
  else match le b 8 1 with
    | 0 => d.tickLine b
    | 1 => d.tickStart b
    | 2 => d.tickRound b
    | 3 => d.tickChanges b
    | 4 => d.tickSegment b
    | _ => d

/-- TICK_FRAME. -/
def tickFrame (f : LinkFrame) (d : Dev) : Dev := d.linkIn 0x20 f Dev.tickIn

/-! ## PLAN frames (R577) -/

/-- The travel planned last is planned anew, with another period or ending at rest. -/
def Dev.replan (d : Dev) (redo : Dev → Dev) : Dev :=
  match d.axes.a.segs.reverse with
  | last :: prev :: rest =>
    if last.told.isSome then redo d else
    let g := d.mot
    let back := d.mot.fwd
    let d := { d with mot := { g with bound := if back then g.bound - 64 else g.bound + 64, per := prev.t / 4, vEnd := prev.vEnd } }
    redo (d.onAxis 0 fun a => { a with segs := (prev :: rest).reverse })
  | _ => redo d

/-- A member's plan acts on the period that the master has committed for the next line: the greatest p, the stop plan, a
rest. -/
def Dev.mergePlan (d : Dev) (p : PlanInfo) : Dev :=
  match d.line.band with
  | none => d
  | some b =>
    if b.phase != .firing || b.fromRest || b.restAfter.isSome || p.tick ≠ d.clk.tickNo then d
    else if p.missing then (if d.bandMoves then d.replan fun d => d.stopPlan b.next d.line.period 0xFFFFFFFF else d.stopPlan b.next d.line.period 0xFFFFFFFF)
    else if d.line.nextRest || (!p.rest && p.pReq ≤ d.line.nextPeriod) then d
    else
      let n := max p.pReq d.line.nextPeriod
      let d := { d with line := { d.line with nextPeriod := n, nextRest := p.rest } }
      if d.bandMoves then d.replan fun d => d.travelLine n p.rest false 64 else d

/-- An accepted PLAN frame. -/
def Dev.planIn (b : List Byte) (d : Dev) : Dev :=
  let p := le b 1 1 / 2
  if !d.operating || d.mode < 2 || d.pos ≠ 0 || p = 0 then d else
  let flags := le b 0x12 1
  let info : PlanInfo := { tick := BitVec.ofNat 48 (le b 8 6), pReq := le b 0x0E 4, missing := bit flags 0, rest := bit flags 1 }
  { d with link := { d.link with plans := d.link.plans.set (fin4Of p) (some info) } }.mergePlan info

/-- PLAN_FRAME. -/
def planFrame (f : LinkFrame) (d : Dev) : Dev := d.linkIn 0x21 f Dev.planIn

/-! ## EVENT frames (R591, R595) -/

/-- Severity with a number. -/
def sevOf (n : Nat) : Sev := match n with | 0 => .note | 1 => .derate | 2 => .pause | 3 => .stopPort | 4 => .stopDevice | _ => .halt

/-- The axis or channel that a detection's detail names (R539). -/
def eventSub (code : W16) (port : Nat) (detail : List Byte) : Nat :=
  let x := le detail 0 1
  if code.toNat / 256 = 1 then port
  else if [cAxisJam, cAxisStall, cAxisOvercurrent, cWindingOpen, cNearEnd, cSensorFouled, cSensorBlind, cCoilShortGnd, cCoilShortSupply,
    cCoilHot, cCoilOpen].contains code then x % 16
  else 0

/-- A detection of the other half or of another position, as this chip raises it. -/
def Dev.eventRise (d : Dev) (b : List Byte) : Rise :=
  let code : W16 := BitVec.ofNat 16 (le b 8 2)
  let scope := le b 0x0B 1
  let flags := le b 0x0C 1
  let lvl : Lvl := match scope % 4 with | 0 => .none | 1 => .port | 2 => .device | _ => .stack
  let port := scope / 4 % 4
  let seq : W32 := BitVec.ofNat 32 (le b 0x1A 4)
  let tag := match d.adm seq with | some a => rTag a.raw | none => 0
  let detail := (b.drop 0x1E).take 20
  let sev := sevOf (le b 0x0A 1)
  { code := code, sub := eventSub code port detail, lvl := lvl, port := port, detail := detail, partner := true
    sev := some (if bit flags 2 then (codeSev code).getD sev else sev)
    job := if bit flags 3 then some (seq, tag) else none
    ports := if code.toNat / 256 = 1 then 2 ^ port else 0
    origin := if scope / 16 % 4 = d.pos then none else some (scope / 16 % 4) }

/-- A slice of the other half leaves service: at once when it is fenced, for its margin at a line boundary (R238, R591). -/
def Dev.partnerSlice (d : Dev) (r : Rise) : Dev :=
  if r.code = cSliceFenced then { d with link.partnerSlices := d.link.fewer (le r.detail 8 1) }
  else if r.code = cDelayMargin && r.sev == some .derate then { d with link.partnerLeaving := d.link.partnerLeaving + 1 }
  else d

/-- A detection of the secondary's own circuits, at the primary (R591). -/
def Dev.partnerFault (d : Dev) (r : Rise) : Dev :=
  if r.code = cSliceFenced || r.code = cDelayMargin then (d.partnerSlice r).raise r
  else if r.code = cPllUnlock then d.dissolve 8 r.code.toNat noTick 0
  else if [cSeqWatchdog, cClkForced, cPressFailed, cPressDisagree].contains r.code then d.dissolve 7 r.code.toNat noTick 0
  else d

/-- A detection of the primary, at the secondary: it is recorded here too, and a failed read refuses its record. -/
def Dev.primaryEvent (d : Dev) (r : Rise) : Dev :=
  let d := d.partnerSlice r
  if r.code ≠ cCellarReadFail then d.raise r else
  let ref := d.nextRef r.code r.sub
  let d := d.raise r
  match d.cel.reads.find? fun x => x.2 == le r.detail 9 1 with
  | none => d
  | some (q, _) =>
    let d := { d with cel.reads := d.cel.reads.filter fun x => x.1 ≠ q }
    match d.adm q with | some a => d.readRefused a r.code ref | none => d

/-- An accepted EVENT frame. -/
def Dev.eventIn (b : List Byte) (d : Dev) : Dev :=
  if !d.operating then d else
  let r := d.eventRise b
  if d.fromPartner b then
    if d.pairSecondary then
      (if bit (le b 0x0C 1) 0 then { d with link := { d.link with released := some r.code } } else d.primaryEvent r)
    else if d.pairPrimary then d.partnerFault r else d
  else if d.mode ≠ 0 && r.lvl == .stack && le b 1 1 / 2 ≠ d.pos then d.raise { r with origin := some (le b 1 1 / 2) }
  else d

/-- EVENT_FRAME. -/
def eventFrame (f : LinkFrame) (d : Dev) : Dev := d.linkIn 0x30 f Dev.eventIn

/-! ## ECHO and WRITE frames (R590, R592) -/

/-- An accepted ECHO frame; what it holds is compared once this half's own line has ended. -/
def Dev.echoIn (b : List Byte) (d : Dev) : Dev :=
  if !d.operating || !d.pairPrimary || !d.fromPartner b then d else
  let e : Ts × W32 × W32 := (BitVec.ofNat 48 (le b 8 6), BitVec.ofNat 32 (le b 0x0E 4), BitVec.ofNat 32 (le b 0x12 4))
  { d with link := { d.link with echoed := d.link.echoed ++ [e], partnerSlices := d.link.fewer (le b 0x16 1) } }

/-- ECHO_FRAME. -/
def echoFrame (f : LinkFrame) (d : Dev) : Dev := d.linkIn 0x22 f Dev.echoIn

/-- The write that comes next in a secondary's queue: a forwarded one whose count has been reached, else the first bus
write that has waited 16 µs. -/
def Dev.nextWrite (d : Dev) : Option QWrite :=
  match d.link.queue.find? fun w => w.fromLink && w.count == d.port.writeCount with
  | some w => some w
  | none => (d.link.queue.find? fun w => !w.fromLink).filter fun w => d.past w.ts 400

/-- TWIN_WRITE_APPLY: one write is applied, then the primary's changes that follow it. -/
def twinWriteApply (d : Dev) : Dev :=
  if !d.operating || !d.pairSecondary then d else
  match d.nextWrite with
  | none => d
  | some w =>
    let d := { d with link := { d.link with queue := d.link.queue.erase w } }
    (d.hostWrite (b2n w.fromLink) w.cells).applyChanges

/-- An accepted WRITE frame: with its last part the write takes its place in the queue. -/
def Dev.writeIn (b : List Byte) (d : Dev) : Dev :=
  if !d.operating || !d.pairSecondary || !d.fromPartner b then d else
  let count : W32 := BitVec.ofNat 32 (le b 8 4)
  if laterSeq d.port.writeCount count then d.dissolve 5 0 noTick count.toNat else
  let addr := le b 0x0C 3
  let part := le b 0x0F 1
  let data := ((b.drop 0x10).take (le b 4 1 - 8)).zipIdx.map fun x => (addr + x.2, x.1)
  let parts := d.link.parts ++ [(count, part % 16, data)]
  let mine := parts.filter fun x => x.1 == count
  if mine.length < part / 16 then { d with link := { d.link with parts := parts } }
  else
    let cells := ((List.range 4).map fun i => ((mine.filter fun x => x.2.1 == i).map fun x => x.2.2).flatten).flatten
    { d with link := { d.link with
        parts := parts.filter fun x => x.1 ≠ count
        queue := d.link.queue ++ [{ count := count, fromLink := true, ts := d.clk.now, cells := cells }] } }

/-- WRITE_FRAME. -/
def writeFrame (f : LinkFrame) (d : Dev) : Dev := d.linkIn 0x40 f Dev.writeIn

/-! ## SYNC frames (R571, R585, R586) -/

/-- Whether this chip marks a pulse before READY: a primary whose partner's digest agrees, the master of a stack, a primary
that runs alone among them (R8, R561, R585, R586). -/
def Dev.mayMark (d : Dev) : Bool :=
  d.sys.phase != .run && d.pers.valid && !d.link.marked &&
    ((d.role == 1 && (d.link.partner.map fun i => decide (2 ≤ i.state) && i.digest == d.pers.digest).getD false) ||
     (d.mode ≠ 0 && d.pos == 0 && d.solo && d.link.driving))

/-- SYNC_SEND. The time of the marked pulse is left open: a free value. -/
def syncSend (d : Dev) : Dev :=
  if !d.linkLive then d else
  let d := if d.mayMark then
      let (v, d) := d.drawFree
      let t := d.at_ v
      { d with link := { d.link with marked := true, markAt := some t } }.sendSync (some t)
    else d.sendSync none
  d.drainUnits

/-- What a SYNC frame says. -/
def syncOf (b : List Byte) : SyncInfo :=
  { state := le b 8 1, flags := le b 9 1, digest := BitVec.ofNat 32 (le b 0x0A 4), vintage := BitVec.ofNat 32 (le b 0x0E 4)
    content := BitVec.ofNat 32 (le b 0x12 4), ts := BitVec.ofNat 48 (le b 0x16 6), tick := BitVec.ofNat 48 (le b 0x1C 6) }

/-- Every card image has come whole. -/
def Link.imagesWhole (l : Link) : Bool := l.images.toList.all fun x => x.2.1

/-- The images of the primary's cards make a secondary's personality final (R76, R585). -/
def Dev.takeImages (d : Dev) : Dev :=
  if d.role ≠ 2 || d.sys.phase != .cards || !d.link.imagesWhole then d else
  let cards : Quad Card := d.link.images.mapIdx fun p x => { read := true, image := if x.2.2 || !d.readsCard p then none else some x.1 }
  { d with pers := { d.pers with cards := cards } }.finishPers

/-- Digests that differ: the pair does not form (R81, R586). -/
def Dev.compareDigests (d : Dev) (i : SyncInfo) : Dev :=
  if !d.pers.valid || i.state < 2 || i.digest == d.pers.digest || d.sys.phase == .run then d
  else if d.role = 2 then { d with pers := { d.pers with digestDiffers := true } }
  else if d.link.alone then d
  else
    let r : Rise := { code := cTwinDigestDiffers, sev := some .note, detail := twinDetail 0 (2 * d.pos + 1) 0 noTick 0 0 0 }
    { d with link := { d.link with alone := true }, sys := { d.sys with early := r :: d.sys.early } }

/-- The primary sends its whole vintage when the secondary holds another (R585 step 6). -/
def Dev.sendRecords (d : Dev) (i : SyncInfo) : Dev :=
  if d.role ≠ 1 || !(d.sys.phase == .selfTest || d.sys.phase == .almostReady) || i.state < 2 || i.digest != d.pers.digest ||
      i.content == d.contentCrc || d.link.recordsSent then d else
  let d := (List.range 65).foldl (fun (d : Dev) k => d.sendContent k (d.contentOf k) false) d
  { d with link := { d.link with recordsSent := true } }

/-- A mark that this chip takes its time from: a secondary its primary's, another chip the stack master's; in LANES mode a
position keeps its own tick numbers (R8, R585). -/
def Dev.takeMark (d : Dev) (b : List Byte) (i : SyncInfo) : Dev :=
  let pair := d.role == 2 && d.fromPartner b
  let stack := d.mode ≠ 0 && d.pos ≠ 0 && le b 1 1 / 2 = 0
  if !bit i.flags 0 || d.sys.phase == .run || !(pair || stack) then d
  else { d with link := { d.link with mark := some (i.ts, if d.mode = 1 && !pair then d.clk.tickNo else i.tick) } }

/-- A position shown ready again is lost no longer (R584). -/
def Dev.positionBack (d : Dev) (p : Nat) : Dev :=
  if !d.link.lostPos.getLsbD p then d else
  let lost := d.link.lostPos &&& ~~~ BitVec.ofNat 4 (2 ^ p)
  let d := { d with link := { d.link with lostPos := lost } }
  if lost = 0 then d.endCond cPositionLost 0 else d

/-- Scope of a link code (R583). -/
def Dev.linkLvl (d : Dev) : Lvl := if 2 ≤ d.mode then .stack else .device

/-- POSITION_LOST for a position, while the ring is intact (R584). -/
def Dev.losePosition (d : Dev) (p : Nat) : Dev :=
  if !d.link.aligned || d.link.downHeld || d.link.lostPos.getLsbD p then d else
  let d := { d with link.lostPos := d.link.lostPos ||| BitVec.ofNat 4 (2 ^ p) }
  d.raise { code := cPositionLost, sev := some .pause, lvl := d.linkLvl, job := d.bandJob
            detail := twinDetail 0 (2 * p) 0 d.nextLineTick 0 0 0 }

/-- The state of a node whose SYNC has not come since LINK_DOWN was raised. -/
def unheard : Nat := 0xFF

/-- No SYNC of any node has come yet (R583). -/
def Link.awaitNodes (l : Link) : List (Nat × SyncInfo) := l.nodes.map fun n => (n.1, { n.2 with state := unheard })

/-- The state that the latest SYNC of a node showed. -/
def Link.nodeState (l : Link) (n : Nat) : Nat := ((l.nodes.find? fun x => x.1 == n).map (·.2.state)).getD unheard

/-- Whether a SYNC that comes while LINK_DOWN holds begins its 10 ms anew: in WIDE and TANDEM mode that of a node that is not
READY or was not, in LANES mode the master's first (R583). -/
def Dev.restartsUp (d : Dev) (p was state : Nat) : Bool :=
  d.link.downHeld && ((2 ≤ d.mode && (state ≠ 3 || was ≠ 3)) || (d.mode = 1 && p = 0 && was = unheard))

/-- What a SYNC of another position says at the master: one in a safety reset is lost (R584). -/
def Dev.heardSync (d : Dev) (p was state : Nat) : Dev :=
  let d := if d.restartsUp p was state then { d with link.alignTs := d.clk.now } else d
  if state = 5 && d.alive && d.mode ≠ 0 && d.pos = 0 && p ≠ 0 then d.losePosition p else d

/-- The halves of a pair enter and leave Doze together, as the primary decides; its SYNC frame tells the secondary (R525, R533;
log entry 144). -/
def Dev.followSleep (d : Dev) (state : Nat) : Dev :=
  if !d.pairSecondary then d
  else if state = 4 && d.awake then d.enterDoze
  else if state = 3 && d.sys.sleep == .doze then d.leaveDoze (d.sys.wakeCause.getD .sleepLow)
  else d

/-- An accepted SYNC frame. -/
def Dev.syncIn (b : List Byte) (d : Dev) : Dev :=
  let n := le b 1 1
  let i := syncOf b
  let was := d.link.nodeState n
  let d := { d with link := { d.link with nodes := (d.link.nodes.filter fun (x : Nat × SyncInfo) => x.1 ≠ n) ++ [(n, i)] } }
  let d := d.takeMark b i
  let d := (if i.state = 3 then d.positionBack (n / 2) else d).heardSync (n / 2) was i.state
  if !d.fromPartner b then d else
  let d := { d with link := { d.link with partner := some i } }
  if (i.state = 3 || i.state = 4) && d.sys.phase != .run then d.shutOut
  else
    let d := d.followSleep i.state
    let d := if bit i.flags 1 then d.takeImages else d
    (d.compareDigests i).sendRecords i

/-- SYNC_FRAME. -/
def syncFrame (f : LinkFrame) (d : Dev) : Dev := d.linkIn 0x10 f Dev.syncIn

/-! ## CELLAR frames (R571, R587) -/

/-- A part of a record or image added to what came before; a part at offset 0 starts it anew. -/
def addPart (old data : List Byte) (off : Nat) : List Byte := if off = 0 then data else old.take off ++ data

/-- A record is whole: a read that waits for it at run time is served. -/
def Dev.recordCame (d : Dev) (rec_ : Nat) (bytes : List Byte) : Dev :=
  if !d.pairSecondary || !d.operating then d else
  match d.cel.reads.find? fun x => x.2 == rec_ with
  | none => d
  | some (q, i) => match d.adm q with | some a => d.served a i (if bytes.isEmpty then .empty else .content bytes false) | none => d

/-- An accepted CELLAR frame. -/
def Dev.cellarIn (b : List Byte) (d : Dev) : Dev :=
  if d.role ≠ 2 || !d.fromPartner b then d else
  let rec_ := le b 8 1
  let last := bit (le b 9 1) 0
  let off := le b 0x0A 2
  let data := (b.drop 0x0C).take (le b 4 1 - 4)
  if 0x80 ≤ rec_ && rec_ < 0x84 then
    let p := fin4Of (rec_ - 0x80)
    let old := d.link.images.get p
    { d with link := { d.link with images := d.link.images.set p (addPart old.1 data off, last, bit (le b 9 1) 1) } }
  else if rec_ ≤ 64 then
    let old := ((d.link.records.find? fun x => x.1 == rec_).map (·.2.1)).getD []
    let whole := addPart old data off
    let d := { d with link := { d.link with records := (d.link.records.filter fun x => x.1 ≠ rec_) ++ [(rec_, whole, last)] } }
    if last then d.recordCame rec_ whole else d
  else d

/-- CELLAR_FRAME. -/
def cellarFrame (f : LinkFrame) (d : Dev) : Dev := d.linkIn 0x50 f Dev.cellarIn

/-! ## Delivery and alignment (R566, R569, R583) -/

/-- LINK_ALIGNED. -/
def linkAligned (d : Dev) : Dev :=
  if !d.linkLive || d.link.aligned then d
  else { d with link := { d.link with aligned := true, alignTs := d.clk.now } }

/-- A frame with another attempt number and the check word that goes with it. -/
def withAttempt (b : List Byte) (n : Nat) : List Byte :=
  let r := patch (b.take (b.length - 4)) 5 [BitVec.ofNat 8 n]
  r ++ leBytes 4 (crc32c r).toNat

/-- Whether a frame that serves a line is past its deadline (R569, R575); where no line waits for frames none is. -/
def Dev.frameLate (d : Dev) (b : List Byte) : Bool :=
  d.linkE ≠ 0 && le b 6 2 ≠ 0 && [0x20, 0x21, 0x22].contains (le b 0 1) && d.past d.clk.tickTs (d.linkE + 1)

/-- Whether a frame goes out again now: t_ring + 0.40 µs after its last sending, at most three times (R569). -/
def Dev.resendDue (d : Dev) (f : Flight) : Bool :=
  f.tries < 3 && !d.frameLate f.bytes && d.past f.ts (ceilDiv (d.tRing + 40) 4)

/-- LINK_FRAME_RESEND: the oldest undelivered frame that is due goes out again. -/
def linkResend (d : Dev) : Dev :=
  match d.link.flights.find? d.resendDue with
  | none => d
  | some f =>
    if !d.linkLive then d else
    let g : Flight := { bytes := withAttempt f.bytes (f.tries + 1), tries := f.tries + 1, ts := d.clk.now }
    { d with link := { d.link with
        flights := d.link.flights.map fun x => if x = f then g else x, resends := d.link.resends + 1
        sent := insertFrame g.bytes (if d.link.sentTs = d.clk.now then d.link.sent else []), sentTs := d.clk.now } }

/-- LINK_DOWN: alignment lost for 4 µs, or a frame that serves a line undelivered at its deadline. A formed pair on the
ring dissolves; on a ring of one pair alone nothing ends the condition later: it ends at once. -/
def linkDown (lost : Bool) (d : Dev) : Dev :=
  let late (f : Flight) : Bool := d.frameLate f.bytes
  if !d.linkLive || !(if lost then d.link.aligned else d.link.flights.any late) then d else
  let d := { d with link := { d.link with aligned := d.link.aligned && !lost, alignTs := d.clk.now
                                          flights := if lost then d.link.flights else d.link.flights.filter fun f => !late f } }
  if !d.alive then d else
  let e := { d with link := { d.link with downHeld := decide (d.mode ≠ 0), nodes := d.link.awaitNodes } }.raise
    { code := cLinkDown, sev := some .pause, lvl := d.linkLvl, job := d.bandJob,
      detail := twinDetail (if lost then 1 else 2) 0xFF 0 d.nextLineTick 0 0 0 }
  let e := if d.mode = 0 then e.endCond cLinkDown 0 else e
  if d.link.formed then e.dissolve 8 0 noTick 0 else e

/-- LINK_UP: 10 ms without a loss, in WIDE and TANDEM mode with every position ready, in LANES mode with the master's SYNC
carried (R583). -/
def linkUp (d : Dev) : Dev :=
  if !d.alive || !d.link.aligned || !d.link.downHeld || !d.link.joined || !d.past d.link.alignTs (10 * ms) ||
      (2 ≤ d.mode && !(d.link.nodes.all fun n => n.2.state == 3)) ||
      (d.mode = 1 && d.pos ≠ 0 && !(d.link.nodes.any fun n => n.1 / 2 == 0 && n.2.state ≠ unheard)) then d
  else { d with link := { d.link with downHeld := false } }.endCond cLinkDown 0

/-- NOT_JOINED: the SYNC of this chip has not reached the master by 30.0 ms after reset release (R582). -/
def notJoined (d : Dev) : Dev :=
  if d.mode < 2 || d.pos = 0 || !d.pers.valid || d.persError || !d.clk.clkinOk || !d.link.joined then d else
  { d with link := { d.link with joined := false } }.raise
    { code := cLinkDown, sev := some .pause, lvl := d.linkLvl, detail := twinDetail 3 d.node 0 noTick 0 0 0 }

/-- No TICK frame of position 0 has come for 3 planned line periods, or for 1 ms outside a band (R584). -/
def Dev.masterSilent (d : Dev) : Bool :=
  d.past d.link.tickHeard (if (d.line.band.map fun b => b.phase == .firing).getD false then 3 * d.line.period else ms)

/-- POSITION_LOST: the master misses a member, or a member position 0 (R584). -/
def positionLost (p : BitVec 2) (d : Dev) : Dev :=
  if !d.alive || d.mode = 0 || (d.pos = 0) = (p.toNat = 0) || (p.toNat = 0 && !d.masterSilent) then d else d.losePosition p.toNat

/-- No pulse has come within 1.0 µs after its planned time (R574). -/
def Dev.pulseMissing (d : Dev) : Bool :=
  d.wired && (d.link.tick.map fun t => !t.noLine).getD false && (d.pulsePlan.map fun t => d.past t 26).getD false

/-- The skew that TICK_SKEW reports, with none for nothing to report: that of three ticks running, or of the pulse far from its
plan. Of a pulse that did not come no skew is stated: a free value (R574; log entry 3). -/
def Dev.skewSeen (d : Dev) : Option Int × Dev :=
  if 3 ≤ d.link.skewRun then (some d.link.skew, d)
  else match d.link.stray with
    | some s => (some s, d)
    | none => if d.pulseMissing then let (v, d) := d.drawFree; (some (v : Int), d) else (none, d)

/-- TICK_SKEW (R574). -/
def tickSkew (d : Dev) : Dev :=
  if !d.alive then d else
  match d.skewSeen with
  | (none, _) => d
  | (some s, d) =>
    let d := { d with link.skewRun := 0, link.stray := none }
    d.raise { code := cTickSkew, sev := some .pause, lvl := d.linkLvl, job := d.bandJob
              detail := twinDetail 0 d.node 0 d.nextLineTick 0 0 (s % 4294967296).toNat }

/-- NO_PARTNER: no SYNC from the secondary by 30.0 ms (R586). -/
def noPartner (d : Dev) : Dev :=
  if d.role ≠ 1 || !d.pers.strapsDone || !d.clk.clkinOk || d.sys.ready || d.link.partner.isSome || d.link.alone || d.link.dissolved ||
      d.persError then d else
  { d with link := { d.link with alone := true, ownLow := true } }.raise
    { code := cTwinMismatch, sev := some .derate, lvl := .device, detail := twinDetail 1 (2 * d.pos + 1) 0 noTick 0 0 0 }

/-! ## Takeover (R595 to R597) -/

/-- Every write still in a secondary's queue is applied in its place, with the primary's changes that follow it (R91, R105). -/
def Dev.drainWrites (d : Dev) : Nat → Dev
  | 0 => d
  | n + 1 =>
    let next := (d.link.queue.find? fun w => w.fromLink && w.count == d.port.writeCount).orElse fun _ =>
      (d.link.queue.find? fun w => !w.fromLink).orElse fun _ => d.link.queue.head?
    match next with
    | none => d
    | some w =>
      let d := { d with link := { d.link with queue := d.link.queue.erase w } }
      ((d.hostWrite (b2n w.fromLink) w.cells).applyChanges).drainWrites n

/-- What the primary has written and changed holds in the half that takes over (R91, R105): its queue is emptied, and the
changes that the primary told of are made. -/
def Dev.inheritWindow (d : Dev) : Dev :=
  let d := d.applyChanges.drainWrites d.link.queue.length
  let rest := d.link.changes
  rest.foldl (fun d c => if d.link.formed then d.windowChange c else d) { d with link := { d.link with changes := [] } }

/-- TAKEOVER: TWIN_OWN has been high for 1.0 µs. With a release announced, or the primary silent for 12 µs, the secondary
takes over; while the primary's frames go on the pair dissolves. -/
def takeover (d : Dev) : Dev :=
  if !d.alive || !d.pairSecondary then d
  else if d.link.released.isNone && !d.past d.link.lastFrameTs 300 then d.dissolve 9 0 noTick 0
  else
    let d := d.inheritWindow
    let det := twinDetail 0 (2 * d.pos) ((d.link.released.map BitVec.toNat).getD 0) d.firingTick
      (if d.firingTick = noTick then 0 else d.slotsFired) 0 0
    let d := d.damage fin4 0 0
    { d with link := { d.link with
        formed := false, ownLow := true, takeover := some det, takeWait := d.linesRun && d.line.shiftDone, takeTs := d.clk.now
        queue := [], parts := [], changes := [], checks := [], lineCrcs := [] } }

/-! ## The commands -/

/-- LINK_ALIGNED. -/
def execLinkAligned (s : State) : Host.Outcome State Fault Refusal :=
  .next { s with dev := (linkAligned s.dev).finish }
/-- TICK_FRAME. -/
def execTickFrame (f : LinkFrame) (s : State) : Host.Outcome State Fault Refusal :=
  .next { s with dev := (tickFrame f s.dev).finish }
/-- PLAN_FRAME. -/
def execPlanFrame (f : LinkFrame) (s : State) : Host.Outcome State Fault Refusal :=
  .next { s with dev := (planFrame f s.dev).finish }
/-- EVENT_FRAME. -/
def execEventFrame (f : LinkFrame) (s : State) : Host.Outcome State Fault Refusal :=
  .next { s with dev := (eventFrame f s.dev).finish }
/-- ECHO_FRAME. -/
def execEchoFrame (f : LinkFrame) (s : State) : Host.Outcome State Fault Refusal :=
  .next { s with dev := (echoFrame f s.dev).finish }
/-- WRITE_FRAME. -/
def execWriteFrame (f : LinkFrame) (s : State) : Host.Outcome State Fault Refusal :=
  .next { s with dev := (writeFrame f s.dev).finish }
/-- SYNC_FRAME. -/
def execSyncFrame (f : LinkFrame) (s : State) : Host.Outcome State Fault Refusal :=
  .next { s with dev := (syncFrame f s.dev).finish }
/-- CELLAR_FRAME. -/
def execCellarFrame (f : LinkFrame) (s : State) : Host.Outcome State Fault Refusal :=
  .next { s with dev := (cellarFrame f s.dev).finish }
/-- SYNC_SEND. -/
def execSyncSend (s : State) : Host.Outcome State Fault Refusal :=
  .next { s with dev := (syncSend s.dev).finish }
/-- LINK_FRAME_RESEND. -/
def execLinkFrameResend (s : State) : Host.Outcome State Fault Refusal :=
  .next { s with dev := (linkResend s.dev).finish }
/-- LINK_DOWN. -/
def execLinkDown (lostAlignment : Bool) (s : State) : Host.Outcome State Fault Refusal :=
  .next { s with dev := (linkDown lostAlignment s.dev).finish }
/-- LINK_UP. -/
def execLinkUp (s : State) : Host.Outcome State Fault Refusal :=
  .next { s with dev := (linkUp s.dev).finish }
/-- NOT_JOINED. -/
def execNotJoined (s : State) : Host.Outcome State Fault Refusal :=
  .next { s with dev := (notJoined s.dev).finish }
/-- POSITION_LOST. -/
def execPositionLost (pos : BitVec 2) (s : State) : Host.Outcome State Fault Refusal :=
  .next { s with dev := (positionLost pos s.dev).finish }
/-- TICK_SKEW. -/
def execTickSkew (s : State) : Host.Outcome State Fault Refusal :=
  .next { s with dev := (tickSkew s.dev).finish }
/-- NO_PARTNER. -/
def execNoPartner (s : State) : Host.Outcome State Fault Refusal :=
  .next { s with dev := (noPartner s.dev).finish }
/-- TWIN_WRITE_APPLY. -/
def execTwinWriteApply (s : State) : Host.Outcome State Fault Refusal :=
  .next { s with dev := (twinWriteApply s.dev).finish }
/-- TAKEOVER. -/
def execTakeover (s : State) : Host.Outcome State Fault Refusal :=
  .next { s with dev := (takeover s.dev).finish }

end Sys2Proof.Machine
end

