-- ==== Sys2Proof/Machine/TestPort.lean ====
section
/-! DEFINITION. The bank detector of VHIO and the boundary-scan port (manual chapter 17, R604, R605, R619). The manual
names IEEE 1149.1 and gives the instruction codes; the rest of this file is that standard's (PRESUMED, log 28). -/

namespace Sys2Proof.Machine

/-- VHIO_BANK_DETECTOR: no record is made (R605). -/
def vhioBank (above : Bool) (d : Dev) : Dev := { d with sys := { d.sys with vhioOk := above } }

/-- The controller's next state on a rising edge of TCK. -/
def TapState.next (t : TapState) (tms : Bool) : TapState :=
  match t with
  | .reset => if tms then .reset else .idle
  | .idle => if tms then .selectDr else .idle
  | .selectDr => if tms then .selectIr else .captureDr
  | .captureDr => if tms then .exit1Dr else .shiftDr
  | .shiftDr => if tms then .exit1Dr else .shiftDr
  | .exit1Dr => if tms then .updateDr else .pauseDr
  | .pauseDr => if tms then .exit2Dr else .pauseDr
  | .exit2Dr => if tms then .updateDr else .shiftDr
  | .updateDr => if tms then .selectDr else .idle
  | .selectIr => if tms then .reset else .captureIr
  | .captureIr => if tms then .exit1Ir else .shiftIr
  | .shiftIr => if tms then .exit1Ir else .shiftIr
  | .exit1Ir => if tms then .updateIr else .pauseIr
  | .pauseIr => if tms then .exit2Ir else .pauseIr
  | .exit2Ir => if tms then .updateIr else .shiftIr
  | .updateIr => if tms then .selectDr else .idle

/-- EXTEST and SAMPLE/PRELOAD select the boundary register; HIGHZ, BYPASS and every other code the bypass bit (R619). -/
def Tap.boundary (t : Tap) : Bool := t.ir == 0b0000 || t.ir == 0b0010

/-- A bit enters a shift chain at its far end and the bit nearest TDO leaves. -/
def shiftIn (l : List Bool) (tdi : Bool) : List Bool := l.drop 1 ++ (if l.isEmpty then [] else [tdi])

/-- A rising edge: the work of the present state, then the move by TMS. `upper` holds the two upper bits that the
instruction register captures, which the manual leaves open. -/
def Tap.rise (t : Tap) (tms tdi : Bool) (cells : List Bool) (upper : BitVec 2) : Tap :=
  let t : Tap := match t.state with
    | .captureIr => { t with irShift := upper ++ 0b01#2 }
    | .shiftIr => { t with irShift := BitVec.ofBool tdi ++ t.irShift.extractLsb' 1 3 }
    | .captureDr => if t.boundary then { t with cells := cells } else { t with bypass := false }
    | .shiftDr => if t.boundary then { t with cells := shiftIn t.cells tdi } else { t with bypass := tdi }
    | _ => t
  { t with state := t.state.next tms }

/-- A falling edge: the update registers and TDO. -/
def Tap.fall (t : Tap) : Tap :=
  match t.state with
  | .reset => { t with ir := 0b1111, tdo := none }
  | .updateIr => { t with ir := t.irShift, tdo := none }
  | .updateDr => { t with update := if t.boundary then t.cells else t.update, tdo := none }
  | .shiftIr => { t with tdo := some (t.irShift.getLsbD 0) }
  | .shiftDr => { t with tdo := some (if t.boundary then t.cells.headD false else t.bypass) }
  | _ => { t with tdo := none }

/-- TRST_N low: test-logic reset at once, BYPASS selected (R603, R619). -/
def Tap.cleared (t : Tap) : Tap := { t with state := .reset, ir := 0b1111, tdo := none }

/-- What the test logic does to the balls of the boundary register: EXTEST drives the update cells, HIGHZ drives nothing
(`some none`), and otherwise the device drives them itself (R619). -/
def Tap.takeover (t : Tap) : Option (Option (List Bool)) :=
  if t.ir = 0b0000 then some (some t.update) else if t.ir = 0b0101 then some none else none

/-- Whether the balls of the VHIO bank are driven by the device (R605, R619). -/
def State.vhioDriven (s : State) : Bool := s.dev.sys.vhioOk && s.tap.takeover.isNone

/-- TEST_PORT_TCK_EDGE. -/
def tckEdge (rising tms tdi trstN : Bool) (cells : List Bool) (s : State) : State :=
  if !trstN then { s with tap := s.tap.cleared }
  else if !rising then { s with tap := s.tap.fall }
  else if s.tap.state == .captureIr then
    let (v, d) := s.dev.drawFree
    { s with dev := d, tap := s.tap.rise tms tdi cells (BitVec.ofNat 2 v) }
  else { s with tap := s.tap.rise tms tdi cells 0 }

/-! ## The commands -/

/-- VHIO_BANK_DETECTOR. -/
def execVhioBankDetector (above : Bool) (s : State) : Host.Outcome State Fault Refusal :=
  .next { s with dev := (vhioBank above s.dev).finish }
/-- TEST_PORT_TCK_EDGE. -/
def execTestPortTckEdge (rising tms tdi trstN : Bool) (cells : List Bool) (s : State) : Host.Outcome State Fault Refusal :=
  .next (tckEdge rising tms tdi trstN cells s)

end Sys2Proof.Machine
end

