-- ==== Sys2Proof/Machine/Dispatch.lean ====
section
/-! DEFINITION. The meaning of each command: one arm per row of the opcode table, in the table's order. -/

namespace Sys2Proof.Machine

/-- The effect of a command on everything but the queue. -/
def exec (i : Instr) (s : State) : Host.Outcome State Fault Refusal :=
  match i with
  | .powerOnReset => Sys2Proof.Machine.execPowerOnReset s
  | .resetN => Sys2Proof.Machine.execResetN s
  | .strapRound up down => Sys2Proof.Machine.execStrapRound up down s
  | .pllLock => Sys2Proof.Machine.execPllLock s
  | .setPinMeasure codes sense => Sys2Proof.Machine.execSetPinMeasure codes sense s
  | .headCardReadDone p image => Sys2Proof.Machine.execHeadCardReadDone p image s
  | .cardImageTimeout => Sys2Proof.Machine.execCardImageTimeout s
  | .vintageSelectionDone => Sys2Proof.Machine.execVintageSelectionDone s
  | .pressSelfTestDone pass margin => Sys2Proof.Machine.execPressSelfTestDone pass margin s
  | .readyRise cover opens => Sys2Proof.Machine.execReadyRise cover opens s
  | .xspiRead ca caDone words => Sys2Proof.Machine.execXspiRead ca caDone words s
  | .xspiWrite ca caDone data => Sys2Proof.Machine.execXspiWrite ca caDone data s
  | .jobSlotExamine => Sys2Proof.Machine.execJobSlotExamine s
  | .note => Sys2Proof.Machine.execNote s
  | .band => Sys2Proof.Machine.execBand s
  | .feed => Sys2Proof.Machine.execFeed s
  | .backfeed => Sys2Proof.Machine.execBackfeed s
  | .seekMark => Sys2Proof.Machine.execSeekMark s
  | .cut => Sys2Proof.Machine.execCut s
  | .solenoid => Sys2Proof.Machine.execSolenoid s
  | .adoptProfile => Sys2Proof.Machine.execAdoptProfile s
  | .learnMedia => Sys2Proof.Machine.execLearnMedia s
  | .tasteHead => Sys2Proof.Machine.execTasteHead s
  | .barrier => Sys2Proof.Machine.execBarrier s
  | .profileSectionHandover sec => Sys2Proof.Machine.execProfileSectionHandover sec s
  | .sectionRelease sec => Sys2Proof.Machine.execSectionRelease sec s
  | .blockCheck => Sys2Proof.Machine.execBlockCheck s
  | .statusWrite => Sys2Proof.Machine.execStatusWrite s
  | .gaugeFrameWrite => Sys2Proof.Machine.execGaugeFrameWrite s
  | .lineTick fine => Sys2Proof.Machine.execLineTick fine s
  | .sampleSetComplete set => Sys2Proof.Machine.execSampleSetComplete set s
  | .pressLineComplete cmp => Sys2Proof.Machine.execPressLineComplete cmp s
  | .sliceParityError k => Sys2Proof.Machine.execSliceParityError k s
  | .planeShiftStart rb => Sys2Proof.Machine.execPlaneShiftStart rb s
  | .slotTransfer rb => Sys2Proof.Machine.execSlotTransfer rb s
  | .phaseBoundary => Sys2Proof.Machine.execPhaseBoundary s
  | .strobeGuard p g => Sys2Proof.Machine.execStrobeGuard p g s
  | .strobeStuck p g => Sys2Proof.Machine.execStrobeStuck p g s
  | .headOvertempHard p => Sys2Proof.Machine.execHeadOvertempHard p s
  | .hardLimitRecheck p code => Sys2Proof.Machine.execHardLimitRecheck p code s
  | .vhLowRecheck p code => Sys2Proof.Machine.execVhLowRecheck p code s
  | .vhHigh p code => Sys2Proof.Machine.execVhHigh p code s
  | .headOpen p high ns => Sys2Proof.Machine.execHeadOpen p high ns s
  | .headOpenClear p high => Sys2Proof.Machine.execHeadOpenClear p high s
  | .tasteSetupDone sums => Sys2Proof.Machine.execTasteSetupDone sums s
  | .tasteDotDone sums reopen => Sys2Proof.Machine.execTasteDotDone sums reopen s
  | .tasteReleaseDone => Sys2Proof.Machine.execTasteReleaseDone s
  | .startSampleSetDone set => Sys2Proof.Machine.execStartSampleSetDone set s
  | .bandResume => Sys2Proof.Machine.execBandResume s
  | .encoderCount up => Sys2Proof.Machine.execEncoderCount up s
  | .tickStalled => Sys2Proof.Machine.execTickStalled s
  | .motorStep ax => Sys2Proof.Machine.execMotorStep ax s
  | .mediaRest => Sys2Proof.Machine.execMediaRest s
  | .axisRelease ax => Sys2Proof.Machine.execAxisRelease ax s
  | .chopperPhaseEnd c len => Sys2Proof.Machine.execChopperPhaseEnd c len s
  | .axisOvercurrent ax b mv => Sys2Proof.Machine.execAxisOvercurrent ax b mv s
  | .aencCount up => Sys2Proof.Machine.execAencCount up s
  | .dcBrakeEnd => Sys2Proof.Machine.execDcBrakeEnd s
  | .dcJamCheck => Sys2Proof.Machine.execDcJamCheck s
  | .yankCheck => Sys2Proof.Machine.execYankCheck s
  | .sensorRound ms => Sys2Proof.Machine.execSensorRound ms s
  | .paperOutClear => Sys2Proof.Machine.execPaperOutClear s
  | .coverOpen high ns => Sys2Proof.Machine.execCoverOpen high ns s
  | .coverClear high => Sys2Proof.Machine.execCoverClear high s
  | .learnRangeEnd => Sys2Proof.Machine.execLearnRangeEnd s
  | .cutterJam => Sys2Proof.Machine.execCutterJam s
  | .pulseStart seq => Sys2Proof.Machine.execPulseStart seq s
  | .solenoidDeadline seq => Sys2Proof.Machine.execSolenoidDeadline seq s
  | .adcbSample sc vbst => Sys2Proof.Machine.execAdcbSample sc vbst s
  | .onShareWindow ch => Sys2Proof.Machine.execOnShareWindow ch s
  | .peakEnd ch => Sys2Proof.Machine.execPeakEnd ch s
  | .holdEnd ch => Sys2Proof.Machine.execHoldEnd ch s
  | .channelOff ch => Sys2Proof.Machine.execChannelOff ch s
  | .coilModelUpdate => Sys2Proof.Machine.execCoilModelUpdate s
  | .coilOpen ch => Sys2Proof.Machine.execCoilOpen ch s
  | .coilShortSupply ch reading => Sys2Proof.Machine.execCoilShortSupply ch reading s
  | .coilIdleTest readings => Sys2Proof.Machine.execCoilIdleTest readings s
  | .boostOvervolt code => Sys2Proof.Machine.execBoostOvervolt code s
  | .uartBreak clocks => Sys2Proof.Machine.execUartBreak clocks s
  | .uartWriteFrame f => Sys2Proof.Machine.execUartWriteFrame f s
  | .uartPoll f => Sys2Proof.Machine.execUartPoll f s
  | .streamWriteUnit f => Sys2Proof.Machine.execStreamWriteUnit f s
  | .streamPollUnit f => Sys2Proof.Machine.execStreamPollUnit f s
  | .streamStrayChar c => Sys2Proof.Machine.execStreamStrayChar c s
  | .xon => Sys2Proof.Machine.execXon s
  | .xoff => Sys2Proof.Machine.execXoff s
  | .uartTimeout f clocks => Sys2Proof.Machine.execUartTimeout f clocks s
  | .uartReply => Sys2Proof.Machine.execUartReply s
  | .corkPulse low high => Sys2Proof.Machine.execCorkPulse low high s
  | .cellarEraseDone ok => Sys2Proof.Machine.execCellarEraseDone ok s
  | .cellarProgramDone ok => Sys2Proof.Machine.execCellarProgramDone ok s
  | .storeComplete => Sys2Proof.Machine.execStoreComplete s
  | .storeResume => Sys2Proof.Machine.execStoreResume s
  | .storeStarved => Sys2Proof.Machine.execStoreStarved s
  | .cellarReadDone => Sys2Proof.Machine.execCellarReadDone s
  | .pllUnlock => Sys2Proof.Machine.execPllUnlock s
  | .pllRelockTimeout => Sys2Proof.Machine.execPllRelockTimeout s
  | .rampStep d => Sys2Proof.Machine.execRampStep d s
  | .clkForced d => Sys2Proof.Machine.execClkForced d s
  | .clkinLost => Sys2Proof.Machine.execClkinLost s
  | .clkinRestored => Sys2Proof.Machine.execClkinRestored s
  | .seqWatchdog q step => Sys2Proof.Machine.execSeqWatchdog q step s
  | .firingHoldEnd p set => Sys2Proof.Machine.execFiringHoldEnd p set s
  | .portReset p => Sys2Proof.Machine.execPortReset p s
  | .reactionEnd seq => Sys2Proof.Machine.execReactionEnd seq s
  | .delayMonitor margin => Sys2Proof.Machine.execDelayMonitor margin s
  | .sleepRequest => Sys2Proof.Machine.execSleepRequest s
  | .dozeEntry => Sys2Proof.Machine.execDozeEntry s
  | .dormantEntry => Sys2Proof.Machine.execDormantEntry s
  | .wake cause => Sys2Proof.Machine.execWake cause s
  | .linkAligned => Sys2Proof.Machine.execLinkAligned s
  | .tickFrame f => Sys2Proof.Machine.execTickFrame f s
  | .planFrame f => Sys2Proof.Machine.execPlanFrame f s
  | .eventFrame f => Sys2Proof.Machine.execEventFrame f s
  | .echoFrame f => Sys2Proof.Machine.execEchoFrame f s
  | .writeFrame f => Sys2Proof.Machine.execWriteFrame f s
  | .syncFrame f => Sys2Proof.Machine.execSyncFrame f s
  | .cellarFrame f => Sys2Proof.Machine.execCellarFrame f s
  | .syncSend => Sys2Proof.Machine.execSyncSend s
  | .linkFrameResend => Sys2Proof.Machine.execLinkFrameResend s
  | .linkDown lostAlignment => Sys2Proof.Machine.execLinkDown lostAlignment s
  | .linkUp => Sys2Proof.Machine.execLinkUp s
  | .notJoined => Sys2Proof.Machine.execNotJoined s
  | .positionLost pos => Sys2Proof.Machine.execPositionLost pos s
  | .tickSkew => Sys2Proof.Machine.execTickSkew s
  | .noPartner => Sys2Proof.Machine.execNoPartner s
  | .twinWriteApply => Sys2Proof.Machine.execTwinWriteApply s
  | .takeover => Sys2Proof.Machine.execTakeover s
  | .vhioBankDetector above => Sys2Proof.Machine.execVhioBankDetector above s
  | .testPortTckEdge rising tms tdi trstN cells => Sys2Proof.Machine.execTestPortTckEdge rising tms tdi trstN cells s

end Sys2Proof.Machine
end

