-- ==== Sys2Proof/Machine/Tick.lean ====
section
/-! DEFINITION. One CLKIN period: what time alone does. -/

namespace Sys2Proof.Machine

/-- One CLKIN period passes (R501): the timestamp counts, in Dormant by 64 on each SLOWCLK edge; the powered
seconds count (R554); FAULT_N rises when R157 lets it. -/
def clkinPeriod (d : Dev) : Dev :=
  if !d.clk.clkinOk then d else
  let slow := d.clk.slowPhase + 1
  let now := if d.sys.sleep == .dormant then (if slow = 0 then d.clk.now + 64 else d.clk.now) else d.clk.now + 1
  let n := since now d.clk.now
  let d := { d with clk.slowPhase := slow, clk.now := now }
  let p := d.age.powered + n
  let r := d.age.run + (if d.rings.admitted.isEmpty then 0 else n)
  let d := { d with age := { d.age with powered := p % 25000000, run := r % 25000000 } }
  let d := if p < 25000000 then d else d.ledAdd 4 4 1
  let d := if r < 25000000 then d else d.ledAdd 8 4 1
  d.faultRelease

end Sys2Proof.Machine
end

