-- ==== Sys2Proof/Safety.lean ====
section
/-! DEFINITION. What counts as a safe run, and the terms in which the statements speak: a device at which nothing is under
way, the level of FAULT_N that R157 forbids, and the names of a strap's classes. -/

namespace Sys2Proof

/-- The run of n steps from a state answers a next state. -/
def SafeRun (n : Nat) (s : Machine.State) : Prop := ∃ t, core.run n s = .next t

end Sys2Proof

namespace Sys2Proof.Machine

/-- Nothing is under way: no record is admitted, no status record waits for room, no reaction is in force, no band, move,
cut, tasting run, pulse or store is in progress, nothing waits to go out on the link, an open cover is known to be open, and the
half-bridges do what they are to do. -/
structure Quiet (d : Dev) : Prop where
  link : d.clk.linkRun = true ∨ d.link.aligned = false
  admitted : d.rings.admitted = []
  waiting : d.rings.waiting = []
  room : d.rings.fullHeld = false
  band : d.line.band = none
  move : d.media.move = none
  cut : d.media.cut = none
  taste : d.taste = none
  reactions : d.flt.active = []
  pulses : d.solx.runs = []
  cork : d.cel.pulseHeld = false
  store : d.cel.store = none
  slices : ∀ k, (d.line.slices.get k).leaving = false
  partner : d.link.partnerLeaving = 0
  plan : d.link.planOwed = false
  cover : d.media.cover = false → d.coverActive = false
  bridges : ∀ x b, ((d.axes.get x).wind b).bridge = d.wantBridge x b
  takeover : d.link.takeover = none
  changes : d.link.changes = []
  echoes : d.link.echoed = []
  resends : d.link.resends = 0
  segments : d.axes.a.segs = []

/-- FAULT_N is low although the device operates, no FAULT record is open and none is still to be written, and its 10 µs have
passed: what R157 forbids. -/
def FaultHangs (d : Dev) : Prop :=
  d.sys.faultN = false ∧ d.operating = true ∧ d.rings.openFaults = [] ∧ d.sys.early = [] ∧ d.past d.sys.faultNTs (10 * us) = true

/-- The three classes of a strap pin (R47). -/
inductive StrapClass where
  | low | high | float
deriving DecidableEq, Repr

/-- The class of pin i in one round, from the reading with the pull-up and the reading with the pull-down on (R47). -/
def strapClass (r : BitVec 16 × BitVec 16) (i : Nat) : Option StrapClass :=
  match r.1.getLsbD i, r.2.getLsbD i with
  | false, false => some .low
  | true, true => some .high
  | true, false => some .float
  | false, true => none

/-- How many of three rounds class pin i so. -/
def strapVotes (r0 r1 r2 : BitVec 16 × BitVec 16) (i : Nat) (c : StrapClass) : Nat :=
  ([r0, r1, r2].filter fun r => strapClass r i == some c).length

end Sys2Proof.Machine
end

