-- ==== Sys2Proof/Certificates/Slice0/Obligations.lean ====
section
/-! DEFINITION. The statements about the block: one step and runs of steps, the effect of every command by family, what each
family leaves alone, and rules of the manual that hold of the shared operations. A command's effect is written as the
device it makes of the present one; finish is what every command ends with (records that may begin, reactions that may
end, waits, FAULT_N), and does nothing but release FAULT_N on a device at which nothing is under way. -/

open Sys2Proof Sys2Proof.Machine

/-! ## Steps and runs -/

/-- One step takes the command at the front of the queue and is that command's effect on the state with the queue's rest. -/
def Obligations.StepRunsFrontCommand : Prop :=
  ∀ (c : Instr) (s : State), step { s with pending := c :: s.pending } = Machine.exec c s

/-- On an empty queue one CLKIN period passes (the model's choice, log entry 1): the timestamp counts by 1 outside Dormant, in
Dormant by 64 on each SLOWCLK edge and not otherwise, and not at all while CLKIN is absent (R501, R514); besides the timestamp
and the SLOWCLK phase only the ageing ledger and FAULT_N can change, and FAULT_N can only rise. -/
def Obligations.IdleStepIsOneClkinPeriod : Prop :=
  ∀ s : State, s.pending = [] →
    (s.dev.clk.clkinOk = false → step s = .next s) ∧
    (s.dev.clk.clkinOk = true → ∃ (g : Age) (f : Bool),
      step s = .next { s with dev := ({ s.dev with
        clk := { s.dev.clk with
          slowPhase := s.dev.clk.slowPhase + 1
          now := if s.dev.sys.sleep = .dormant then (if s.dev.clk.slowPhase + 1 = 0 then s.dev.clk.now + 64 else s.dev.clk.now)
            else s.dev.clk.now + 1 }
        age := g, sys := { s.dev.sys with faultN := f } }) } ∧
      (s.dev.sys.faultN = true → f = true))

/-- n steps on an empty queue outside Dormant advance the timestamp by n, modulo 2 to the 48, and nothing of the window, the
rings, the heads, the axes, the channels or the link. In Dormant 64 steps on an empty queue advance the timestamp by 64, so 64 n
steps by 64 n. -/
def Obligations.TimePassesWhileIdle : Prop :=
  (∀ (n : Nat) (s : State), s.pending = [] → s.dev.clk.clkinOk = true → s.dev.sys.sleep ≠ .dormant →
      ∃ t : State, core.run n s = .next t ∧ t.pending = [] ∧ t.tap = s.tap ∧
        t.dev.clk.now = s.dev.clk.now + BitVec.ofNat 48 n ∧ t.dev.clk.tickNo = s.dev.clk.tickNo ∧
        t.dev.win = s.dev.win ∧ t.dev.rings = s.dev.rings ∧ t.dev.heads = s.dev.heads ∧ t.dev.axes = s.dev.axes ∧
        t.dev.sol = s.dev.sol ∧ t.dev.link = s.dev.link)
  ∧ (∀ (n : Nat) (s : State), s.pending = [] → s.dev.clk.clkinOk = true → s.dev.sys.sleep = .dormant →
      ∃ t : State, core.run (64 * n) s = .next t ∧ t.pending = [] ∧ t.dev.sys.sleep = .dormant ∧
        t.dev.clk.slowPhase = s.dev.clk.slowPhase ∧ t.dev.clk.now = s.dev.clk.now + BitVec.ofNat 48 (64 * n) ∧
        t.dev.win = s.dev.win ∧ t.dev.rings = s.dev.rings)

/-- The queue is first in, first out: as many steps as commands are queued run exactly those commands in order, and the commands
queued behind them neither act nor change what they do. -/
def Obligations.QueueIsFirstInFirstOut : Prop :=
  ∀ (cs rest : List Instr) (s : State), s.pending = cs →
    ∃ t : State, core.run cs.length s = .next t ∧ t.pending = [] ∧
      core.run cs.length { s with pending := cs ++ rest } = .next { t with pending := rest }

/-- No run of any length from any state faults or is refused. -/
def Obligations.EveryRunIsSafe : Prop :=
  ∀ (n : Nat) (s : State), SafeRun n s

/-- After reset FAULT_N is high, so it does not hang low. -/
def Obligations.ResetFaultLineIsFree : Prop :=
  State.reset.dev.sys.faultN = true ∧ ¬ FaultHangs State.reset.dev

/-- R157 as an invariant that every step keeps, whatever the command: never is FAULT_N low at an operating device of which no
FAULT record is open and whose 10 µs of low have passed. -/
def Obligations.FaultLineNeverHangs : Prop :=
  ∀ s s' : State, ¬ FaultHangs s.dev → step s = .next s' → ¬ FaultHangs s'.dev

/-- No command changes the queue behind it, none but POWER_ON_RESET and TEST_PORT_TCK_EDGE changes the test logic, and
POWER_ON_RESET leaves it at reset. What the test logic holds never reaches the device: two runs of the same commands, none of
them a TCK edge, from states that differ only in the test logic stay equal but for it. -/
def Obligations.TestLogicStaysApart : Prop :=
  (∀ (c : Instr) (s t : State), Machine.exec c s = .next t →
      t.pending = s.pending ∧
      (c = .powerOnReset → t.tap = {}) ∧
      (c ≠ .powerOnReset → (∀ r m i n l, c ≠ .testPortTckEdge r m i n l) → t.tap = s.tap))
  ∧ (∀ (n : Nat) (s : State) (u : Tap), (∀ c ∈ s.pending, ∀ r m i k l, c ≠ .testPortTckEdge r m i k l) →
      ∃ t v : State, core.run n s = .next t ∧ core.run n { s with tap := u } = .next v ∧
        v.dev = t.dev ∧ v.pending = t.pending)

/-- A device at which nothing is under way has nothing to set going after a command: finish only lets FAULT_N rise. So there a
command's whole effect is the one written for it. -/
def Obligations.QuietDeviceFinishesAtOnce : Prop :=
  ∀ d : Dev, Quiet d → Dev.finish d = d.faultRelease ∧ (d.sys.faultN = true → Dev.finish d = d)

/-- Commands that touch neither the window nor the rings, at a device at which nothing is under way: every byte of the window,
every record and every counter of the host port stays. -/
def Obligations.QuietCommandsLeaveTheWindow : Prop :=
  ∀ (s t : State) (c : Instr), Quiet s.dev →
    ((∃ b, c = .vhioBankDetector b) ∨ (∃ n, c = .uartBreak n) ∨ c = .sleepRequest ∨ c = .linkAligned ∨ (∃ k, c = .onShareWindow k) ∨
      (∃ x, c = .axisRelease x) ∨ (∃ u v, c = .strapRound u v) ∨ (∃ r m i k l, c = .testPortTckEdge r m i k l)) →
    Machine.exec c s = .next t →
    t.dev.win = s.dev.win ∧ t.dev.rings = s.dev.rings ∧ t.dev.port = s.dev.port ∧ (∀ a, t.dev.ram a = s.dev.ram a) ∧
    t.dev.heads = s.dev.heads ∧ t.dev.line = s.dev.line ∧ t.dev.mot = s.dev.mot

/-! ## Resets and the reset sequence -/

/-- POWER_ON_RESET and RESET_N leave everything at its reset value; kept are what the table of R534 keeps, the pins of the
outside world and the cellar's cells: the cellar programmes nothing, every section and every owner byte is the host's, the
timestamp and the tick number are zero after a power-on reset and stand after RESET_N. -/
def Obligations.HardResetsAnswer : Prop :=
  ∀ s : State,
    Machine.exec .powerOnReset s = .next
      { pending := s.pending, tap := {}
        dev := {
          clk := { slowPhase := s.dev.clk.slowPhase, clkinOk := s.dev.clk.clkinOk }
          sys := { resetKind := .powerOn, vhioOk := s.dev.sys.vhioOk, frees := s.dev.sys.frees }
          win := { epoch := s.dev.win.epoch + 1 }
          cel := s.dev.cel.keep
          link := { s.dev.link.afterReset false false with aligned := false } } } ∧
    Machine.exec .resetN s = .next
      { s with dev := {
          clk := { now := s.dev.clk.now, tickNo := s.dev.clk.tickNo, tickTs := s.dev.clk.tickTs
                   slowPhase := s.dev.clk.slowPhase, clkinOk := s.dev.clk.clkinOk }
          sys := { resetKind := .resetN, vhioOk := s.dev.sys.vhioOk, frees := s.dev.sys.frees }
          win := { epoch := s.dev.win.epoch + 1 }
          cel := s.dev.cel.keep
          link := { s.dev.link.afterReset false false with aligned := false } } }

/-- STRAP_ROUND: the first two rounds are kept; with the third the straps are decided, the device goes on to the SET pins once
the PLL is locked, and a chip that is not a twin secondary drives its outputs; straps in error take FAULT_N low at once.
SET_PIN_MEASURE: the sources go off, and every SET pin and every axis is decoded from its conversions. A personality error stops
the sequence with its first cause and pin and FAULT_N low; otherwise the head cards are read, and where none is to be read the
personality is final. -/
def Obligations.StrapsAndSetPinsAnswer : Prop :=
  (∀ (s : State) (up down : BitVec 16), s.dev.sys.phase = .straps → s.dev.clk.clkinOk = true →
      (s.dev.pers.rounds.length < 2 →
        Machine.exec (.strapRound up down) s = .next { s with dev := (
          Dev.finish { s.dev with pers := { s.dev.pers with rounds := s.dev.pers.rounds ++ [(up, down)] } }) }) ∧
      (2 ≤ s.dev.pers.rounds.length → ∀ (p : Pers) (e : Dev), p = { s.dev.pers.decideStraps (s.dev.pers.rounds ++ [(up, down)]) with pulls := false } →
        e = { s.dev with
          pers := p
          sys := { s.dev.sys with phase := if s.dev.clk.locked then .settling else .locking }
          link := { s.dev.link with driving := decide (({ s.dev with pers := p } : Dev).role ≠ 2) } } →
        Machine.exec (.strapRound up down) s = .next { s with dev := Dev.finish (if e.strapFault.isSome then e.faultLow else e) }))
  ∧ (∀ (s : State) (codes sense : List (List Adc)) (e : Dev),
      s.dev.sys.phase = .settling → s.dev.clk.clkinOk = true → s.dev.clk.locked = true →
      e = (let d := { s.dev with pers := { s.dev.pers with
             sets := (List.range 12).map fun i => setPinOf (codes.getD i []), sources := false, setsDone := true } }
           { d with pers := { d.pers with
               axisCfg := d.pers.axisCfg.mapIdx fun x _ =>
                 axisCode d.noMotion (x.val == 3) (senseOf (sense.getD (2 * x.val) [])) (senseOf (sense.getD (2 * x.val + 1) []))
               senseRaw := (List.range 8).map fun i => BitVec.ofNat 12 (meanCode (sense.getD i [])) } }) →
      (∀ cause pin, e.persFault = some (cause, pin) →
        Machine.exec (.setPinMeasure codes sense) s = .next { s with dev := (
          Dev.finish { e.decidePorts with
            sys := { e.decidePorts.sys with phase := .personalityError }
            pers := { e.decidePorts.pers with error := true, cause := cause, pin := pin } }.faultLow) }) ∧
      (∀ f : Dev, e.persFault = none → f = { e with sys := { e.sys with phase := .cards } } →
        Machine.exec (.setPinMeasure codes sense) s = .next { s with dev :=
          (Dev.finish (if f.role ≠ 2 ∧ f.cardsRead = true then f.finishPers else f)) }))

/-- R47: from three rounds a pin's level is the class that at least two of them agree on, and a pin whose rounds agree on none
is undecided. A reading low with the pull-up and high with the pull-down on has no class (log entry 84). -/
def Obligations.StrapLevelIsTheMajority : Prop :=
  ∀ (p : Pers) (r0 r1 r2 : BitVec 16 × BitVec 16) (i : Nat), i < 16 →
    (((p.decideStraps [r0, r1, r2]).high.getLsbD i = true ↔ 2 ≤ strapVotes r0 r1 r2 i .high) ∧
     ((p.decideStraps [r0, r1, r2]).float.getLsbD i = true ↔ 2 ≤ strapVotes r0 r1 r2 i .float) ∧
     ((p.decideStraps [r0, r1, r2]).undecided.getLsbD i = true ↔
        strapVotes r0 r1 r2 i .low < 2 ∧ strapVotes r0 r1 r2 i .high < 2 ∧ strapVotes r0 r1 r2 i .float < 2))

/-- HEAD_CARD_READ_DONE keeps what came of one port's card, and with the last card the personality is final. CARD_IMAGE_TIMEOUT
at a twin secondary to which no image has come takes every card as absent. VINTAGE_SELECTION_DONE chooses a vintage, loads its
content, merges the dead-dot tables, and goes on to the press self-test. PRESS_SELF_TEST_DONE starts every failing slice fenced,
says so, notes the margins and starts the thermal and the coil models; with no slice left the press has failed and READY stays
low. READY_RISE, when READY may rise at a device that runs alone, posts SESSION_START and what follows it, raises READY and
evaluates the pins against their active levels. -/
def Obligations.SequenceToReadyAnswers : Prop :=
  (∀ s : State, s.dev.clk.clkinOk = true →
      (∀ (p : Fin 4) (image : Option (List Byte)) (e : Dev),
        s.dev.sys.phase = .cards → s.dev.role ≠ 2 → s.dev.readsCard p = true → (s.dev.pers.cards.get p).read = false →
        e = { s.dev with pers := { s.dev.pers with cards := s.dev.pers.cards.set p { read := true, image := image } } } →
        Machine.exec (.headCardReadDone p image) s = .next { s with dev := Dev.finish (if e.cardsRead then e.finishPers else e) }) ∧
      (s.dev.sys.phase = .cards → s.dev.role = 2 → (∀ x ∈ s.dev.link.images.toList, x.2 = (false, false)) →
        Machine.exec .cardImageTimeout s = .next { s with dev := (
          Dev.finish (Dev.finishPers { s.dev with pers := { s.dev.pers with cards := Quad.all { read := true } } })) }) ∧
      (∀ e : Dev, s.dev.sys.phase = .vintage →
        e = s.dev.chooseVintage.correctedAtReset.foldl (fun d i => d.corrected i) s.dev.chooseVintage →
        Machine.exec .vintageSelectionDone s = .next { s with dev := (
          Dev.finish { (e.loadContent e.contentOf).afterLoad with
            sys := { (e.loadContent e.contentOf).afterLoad.sys with phase := .selfTest } }) }))
  ∧ (∀ s : State,
      (∀ (pass : BitVec 4) (margin : Quad (BitVec 16)) (e : Dev), s.dev.sys.phase = .selfTest → s.dev.clk.clkinOk = true →
        e = (let d := Dev.each4 { s.dev with sys := { s.dev.sys with phase := .almostReady } } fin4
               (fun k d => d.testSlice k (pass.getLsbD k.val))
             ((d.each4 fin4 fun k d => d.testFenced k).sliceMargins margin).startModels) →
        Machine.exec (.pressSelfTestDone pass margin) s = .next { s with dev := (
          Dev.finish (if e.slicesIn = 0 then e.pressless else e)) }) ∧
      (∀ (cover : Bool) (opens : Quad Bool) (e f : Dev), s.dev.mayRise = true →
        e = Dev.openSession (Dev.tellEarly (let d := if s.dev.solo then { s.dev with link := { s.dev.link with ownLow := decide (s.dev.role ≠ 0) } } else s.dev.form
              { d with sys := { d.sys with phase := .run, ready := true } })) →
        f = { e with media := { e.media with coverPin := cover }
                     heads := e.heads.mapIdx fun p h => { h with openPin := e.openActive p (opens.get p) } } →
        Machine.exec (.readyRise cover opens) s = .next { s with dev := (
          Dev.finish (Dev.evaluatePins { f with media := { f.media with cover := f.coverActive } })) }))

/-! ## Clocks and power states -/

/-- PLL_LOCK: the PLL counts as locked. In the reset sequence every domain takes the PLL's clock, HEAD and LINK run, and the
sequence goes on to the SET pins, whose sources go on, with the SET pins measured to the head cards, with a valid personality to
the vintage, with an erroneous one to its error state; in run, outside a wake from Dormant, the loss of lock that PLL_UNLOCK
raised ends. PLL_UNLOCK at an operating device: the loss is noted, every strobe is killed under PLL_UNLOCK, the fault is raised
at PAUSE severity and device level with the line being fired, CORE, MOTION and ADC go to their fallback sources, HEAD and LINK
stop, and a formed pair dissolves; a device not yet in run, or in a wake from Dormant, only goes to its fallback sources.
PLL_RELOCK_TIMEOUT, 1 ms later without lock, raises it again at STOP_DEVICE severity, naming the first record. -/
def Obligations.PllAnswers : Prop :=
  (∀ (s : State) (e : Dev), s.dev.clk.clkinOk = true → s.dev.clk.pllOn = true → s.dev.clk.locked = false →
      s.dev.sys.sleep = .awake →
      e = Dev.startDomains { s.dev with
        clk := { s.dev.clk with locked := true, unlockTs := none, unlockLate := false }
        pers := { s.dev.pers with sources := !s.dev.pers.setsDone && (s.dev.sys.phase == .straps || s.dev.sys.phase == .locking) } } →
      (e.clk.locked = true ∧ e.clk.headRun = true ∧ e.clk.linkRun = true ∧
        e.clk.core.src = .pll ∧ e.clk.motion.src = .pll ∧ e.clk.adc.src = .pll) ∧
      (s.dev.sys.phase = .locking →
        Machine.exec .pllLock s = .next { s with dev := (Dev.finish { e with sys := { e.sys with
          phase := if e.pers.valid then .vintage else if e.pers.error then .personalityError
            else if e.pers.setsDone then .cards else .settling } }) }) ∧
      (s.dev.sys.phase = .run → s.dev.sys.wakeCause = none →
        Machine.exec .pllLock s = .next { s with dev :=
          (Dev.finish (let r := (e.unkill fin4 cPllUnlock).endCond cPllUnlock 0
                       if r.domainsBack then r.closeShadow .domain (2 * ms) else r)) }))
  ∧ (∀ s : State, s.dev.clk.clkinOk = true → s.dev.clk.pllOn = true →
      (s.dev.clk.locked = true → (s.dev.operating = false ∨ s.dev.sys.ready = false) →
        Machine.exec .pllUnlock s = .next { s with dev := (Dev.finish s.dev.markUnlock.fallAll) }) ∧
      (∀ (det : List Byte) (d e r : Dev),
        s.dev.clk.locked = true → s.dev.operating = true → s.dev.sys.ready = true →
        det = clockDetail 0xFF 0 s.dev.firingTick 0xFFFFFFFF 0 → d = s.dev.markUnlock.unlockStrobes →
        e = (if d.pairSecondary then
          d.sendEvent cPllUnlock Sev.pause.code (d.scopeByte .device 0) 0 (lineTickOf cPllUnlock det) 0 det else d) →
        r = Dev.fallAll (e.raise { code := cPllUnlock, sev := some .pause, lvl := .device, job := e.bandJob, detail := det }) →
        Machine.exec .pllUnlock s = .next { s with dev :=
          (Dev.finish (if r.link.formed then r.dissolve 8 cPllUnlock.toNat noTick 0 else r)) }) ∧
      (∀ t : Ts, s.dev.clk.locked = false → s.dev.clk.unlockTs = some t → s.dev.clk.unlockLate = false →
        s.dev.past t (1 * ms) = true → s.dev.alive = true →
        Machine.exec .pllRelockTimeout s = .next { s with dev :=
          (Dev.finish (Dev.raise { s.dev with clk := { s.dev.clk with unlockLate := true } }
            { code := cPllUnlock, sev := some .stopDevice, lvl := .device, detail := clockDetail 0xFF 0 noTick 0xFFFFFFFF 0
              related := if s.dev.clk.unlockSeq = 0 then none else some s.dev.clk.unlockSeq })) }))

/-- RAMP_STEP moves a domain by one of the eight steps of its ramp, and at the eighth to its source. CLK_FORCED moves a domain
at the PLL to its fallback source at once; for ADC at a device alone it is a STOP_DEVICE. CLKIN_LOST stops every clock, forces
every strobe, gate and READY inactive and FAULT_N low, and HMEAS keeps its level, and of the solenoid stage only the boost's
dump may be high; CLKIN_RESTORED makes a safety reset with halt_code CLKIN_LOST, at which the timestamp and the tick number
stand. -/
def Obligations.ForcedClocksAnswer : Prop :=
  ∀ s : State,
    (∀ (x : Dom) (e : Dev), s.dev.clk.clkinOk = true → (s.dev.clk.dom x).step < 8 →
      e = { s.dev with clk := s.dev.clk.setDom x (s.dev.clk.dom x).step1 } →
      Machine.exec (.rampStep x) s = .next { s with dev :=
        (Dev.finish (if e.domainsBack then e.closeShadow .domain (2 * ms) else e)) }) ∧
    (∀ (x : Dom) (e : Dev), s.dev.clk.clkinOk = true → (s.dev.clk.dom x).src = .pll →
      e = { s.dev with clk := s.dev.clk.setDom x ⟨.fallback, ratioFor (domLow x), 0, 0, 8, .fallback⟩ } →
      (s.dev.alive = false → Machine.exec (.clkForced x) s = .next { s with dev := (Dev.finish e) }) ∧
      (s.dev.alive = true → ∀ r : Rise,
        r = { code := cClkForced, sev := some (if x = .core then .halt else .stopDevice), lvl := .device, job := e.bandJob
              detail := clockDetail (domCode x) 0 e.firingTick 0 0 } →
        Machine.exec (.clkForced x) s = .next { s with dev :=
          (Dev.finish (match x with
            | .core => e.raiseHalt r
            | .motion => e.motionReset.raiseOwn r
            | .adc => Dev.raiseOwn { e with line := { e.line with sampled := false, startTs := none } } r)) })) ∧
    (s.dev.clk.clkinOk = true → s.dev.sys.phase ≠ .personalityError → ∃ e : Dev,
      Machine.exec .clkinLost s = .next { s with dev := (Dev.finish e) } ∧
      e.clk.clkinOk = false ∧ e.clk.locked = false ∧ e.clk.headRun = false ∧ e.clk.linkRun = false ∧
      e.clk.now = s.dev.clk.now ∧ e.clk.tickNo = s.dev.clk.tickNo ∧
      e.sys.ready = false ∧ e.sys.faultN = false ∧ e.sys.hmeas = s.dev.sys.hmeas ∧ e.sys.haltCode = cClkinLost ∧
      e.solx.boost = false ∧ e.solx.dump = s.dev.dumpFit ∧ (∀ p, (e.heads.get p).strobes = 0)) ∧
    (s.dev.clk.clkinOk = false → s.dev.sys.phase = .noClock → s.dev.pers.strapsDone = true → ∃ e : Dev,
      Machine.exec .clkinRestored s = .next { s with dev := (Dev.finish e) } ∧
      e.sys.resetKind = .safety ∧ e.sys.haltCode = cClkinLost ∧ e.sys.phase = .locking ∧ e.sys.faultN = false ∧
      e.clk.clkinOk = true ∧ e.clk.now = s.dev.clk.now ∧ e.clk.tickNo = s.dev.clk.tickNo ∧ e.pers = s.dev.pers ∧
      e.win = { epoch := s.dev.win.epoch + 1 })

/-- The power states: SLEEP_REQUEST notes the request and its time; DOZE_ENTRY, when the device may doze, releases every axis
and stops MOTION, ADC and HEAD; DORMANT_ENTRY after 10 s of Doze stops the PLL, CORE and LINK and lowers READY and keeps the
window; WAKE from Doze starts the domains and posts WOKEN, but in the secondary of a pair, which leaves with its primary; from
Dormant it starts the PLL and remembers the cause, and SLEEP low ends a request at an awake device. -/
def Obligations.PowerStatesAnswer : Prop :=
  ∀ s : State,
    (s.dev.clk.clkinOk = true → s.dev.sys.sleepIgnored = false → s.dev.sys.sleepPin = false →
      Machine.exec .sleepRequest s = .next { s with dev :=
        (Dev.finish { s.dev with sys := { s.dev.sys with sleepPin := true, sleepTs := s.dev.clk.now } }) }) ∧
    (s.dev.mayDoze = true → s.dev.pairSecondary = false → ∃ e : Dev,
      Machine.exec .dozeEntry s = .next { s with dev := (Dev.finish e) } ∧
      e.sys.sleep = .doze ∧ e.sys.dozeTs = s.dev.clk.now ∧ e.clk.motion.src = .stopped ∧ e.clk.adc.src = .stopped ∧
      e.clk.headRun = false ∧ e.clk.linkRun = (s.dev.clk.linkRun && s.dev.link.formed) ∧
      (∀ x, (e.axes.get x).energised = false ∧ (e.axes.get x).pos = (s.dev.axes.get x).pos ∧
        (e.axes.get x).phase = (s.dev.axes.get x).phase) ∧
      e.win = s.dev.win ∧ e.rings = s.dev.rings ∧ e.heads = s.dev.heads ∧ e.mot = s.dev.mot) ∧
    (s.dev.sys.sleep = .doze → s.dev.alive = true → s.dev.sys.sleepPin = true →
      s.dev.past s.dev.sys.dozeTs (10000 * ms) = true → s.dev.mode = 0 → s.dev.sys.wakeCause = none → ∃ e : Dev,
      Machine.exec .dormantEntry s = .next { s with dev := (Dev.finish e) } ∧
      e.sys.sleep = .dormant ∧ e.sys.ready = false ∧ e.clk.pllOn = false ∧ e.clk.locked = false ∧ e.clk.linkRun = false ∧
      e.clk.core.src = .stopped ∧ e.win = s.dev.win ∧ e.heads = s.dev.heads ∧ e.rings = s.dev.rings ∧ e.axes = s.dev.axes) ∧
    (s.dev.clk.clkinOk = true →
      (s.dev.sys.sleep = .awake → Machine.exec (.wake .sleepLow) s = .next { s with dev :=
        (Dev.finish { s.dev with sys := { s.dev.sys with sleepPin := false, sleepIgnored := false } }) }) ∧
      (∀ c : WakeCause, s.dev.sys.sleep = .doze → s.dev.alive = true → c ≠ .serialFrame →
        (s.dev.pairSecondary = false →
          Machine.exec (.wake c) s = .next { s with dev := (Dev.finish (s.dev.startDomains.woken 2 c).tellSleep) }) ∧
        (s.dev.pairSecondary = true →
          Machine.exec (.wake c) s = .next { s with dev := (Dev.finish { s.dev with sys := { s.dev.sys with wakeCause := some c } }) })) ∧
      (∀ c : WakeCause, s.dev.sys.sleep = .dormant → s.dev.alive = true → s.dev.sys.wakeCause = none →
        (c = .serialFrame → s.dev.uart.deferred ≠ none) →
        Machine.exec (.wake c) s = .next { s with dev := (Dev.finish { s.dev with
          sys := { s.dev.sys with wakeCause := some c }
          clk := { s.dev.clk with pllOn := true, unlockTs := some s.dev.clk.now, unlockLate := false, unlockSeq := 0
                                  core := ⟨.fallback, ratioFor (domLow .core), 0, 0, 8, .fallback⟩ } }) }))

/-- SEQ_WATCHDOG of a sequencer whose step runs and counts is a HALT that names the sequencer and its step. FIRING_HOLD_END, 20
ms after the hold began, takes the port's first readings into force. PORT_RESET and REACTION_END take a reaction that may end
out of force. DELAY_MONITOR measures every slice. -/
def Obligations.HoldsAndEndsAnswer : Prop :=
  ∀ s : State, s.dev.operating = true →
    (∀ (q : Sequencer) (step : W32), s.dev.sys.ready = true → s.dev.stepCounts q = true →
      Machine.exec (.seqWatchdog q step) s = .next { s with dev :=
        (Dev.finish (s.dev.drawFree.2.raiseHalt
          { code := cSeqWatchdog, sev := some .halt, lvl := .device, job := s.dev.bandJob
            detail := [6, BitVec.ofNat 8 (seqCode q)] ++ leBytes 4 step.toNat ++ leBytes 4 0 ++
              leBytes 4 (Config.freeNat s.dev.sys.frees) ++ zeros 6 })) }) ∧
    (∀ (p : Fin 4) (set : SampleSet) (t : Ts) (e : Dev), s.dev.portOn p = true → (s.dev.heads.get p).holdTs = some t →
      s.dev.past t (20 * ms) = true →
      e = (s.dev.onHead p fun h => { h with holdTs := none, rawTh := set.th.get p, rawVh := set.vh.get p }).setInputs [p] set noTick s.dev.clk.now →
      Machine.exec (.firingHoldEnd p set) s = .next { s with dev :=
        (Dev.finish (((e.checkTherm p (set.th.get p)).checkSoft p (set.th.get p)).checkVh p (set.vh.get p))) }) ∧
    (∀ (p : Fin 4) (r : React),
      s.dev.flt.active.find? (fun r => r.sev == .stopPort && r.port == p.val && s.dev.mayEnd r) = some r →
      Machine.exec (.portReset p) s = .next { s with dev := (Dev.finish (s.dev.concludeReact r)) }) ∧
    (∀ (seq : W32) (r : React), s.dev.flt.active.find? (fun r => r.seq == seq && s.dev.mayEnd r) = some r →
      Machine.exec (.reactionEnd seq) s = .next { s with dev := (Dev.finish (s.dev.concludeReact r)) }) ∧
    (∀ margin : Quad (BitVec 16), s.dev.sys.sleep = .awake →
      Machine.exec (.delayMonitor margin) s = .next { s with dev := (Dev.finish (s.dev.sliceMargins margin)) })

/-- A port reset clears one port's transfer state, its strobe-guard kill, its thermal model and its inputs in force and opens
its firing hold, and no other port's; measured dot resistances, the window, the rings, the axes and the channels stand. -/
def Obligations.PortResetTouchesOnePort : Prop :=
  ∀ (d : Dev) (p : Fin 4),
    (∀ q, q ≠ p → ((Dev.portReset d p).heads.get q) = d.heads.get q) ∧
    ((Dev.portReset d p).heads.get p).stopped = false ∧ ((Dev.portReset d p).heads.get p).subs = [] ∧
    ((Dev.portReset d p).heads.get p).tLast = none ∧ ((Dev.portReset d p).heads.get p).holdTs = some d.clk.now ∧
    ((Dev.portReset d p).heads.get p).thIn = {} ∧ ((Dev.portReset d p).heads.get p).vhIn = {} ∧
    ((Dev.portReset d p).heads.get p).shiftReg = none ∧ ((Dev.portReset d p).heads.get p).latch = none ∧
    cStrobeGuard ∉ ((Dev.portReset d p).heads.get p).kills ∧
    (∀ x ∈ ((Dev.portReset d p).heads.get p).dots, wState x.2 = 0 ∧ wCarry x.2 = 0 ∧
      ∃ y ∈ (d.heads.get p).dots, y.1 = x.1 ∧ wRes y.2 = wRes x.2) ∧
    Dev.portReset d p = { d with heads := (Dev.portReset d p).heads }

/-! ## The host port and the window -/

/-- XSPI_READ: a transaction that is not whole, not the device's, or that the port does not answer drives nothing and changes
nothing else; one of the slice that is not decoded is counted undecoded; any other is counted as a read and drives the window's
bytes, up to the end of the slice, at a half that drives. With a personality error only the identity page answers. The direction
is that of the command-address alone (R83). XSPI_WRITE: a transaction that is not whole, not the device's, or that the port does
not answer has no effect; before READY every decoded write of the slice is ignored but counted, in write_count and
prewrite_count; from READY on the whole, unmasked bytes of the burst are one host write; and a write that touches an ignored
offset is counted undecoded in both. One that is not decoded is counted undecoded and writes nothing. The direction is that of
the command-address alone (R83). -/
def Obligations.HostTransactionsAnswer : Prop :=
  (∀ (s : State) (ca : BitVec 48) (words : Nat) (e : Dev),
      e = { s.dev with port := { s.dev.port with dq := none } } →
      (caRead ca = false → ∀ caDone, Machine.exec (.xspiRead ca caDone words) s = Machine.exec (.xspiWrite ca caDone []) s) ∧
      (caRead ca = true →
      (∀ caDone, (caDone = false ∨ e.answering = .none ∨ e.caMine ca = false) →
        Machine.exec (.xspiRead ca caDone words) s = .next { s with dev := (Dev.finish e) }) ∧
      (e.answering = .slice → e.caMine ca = true →
        (caDecoded ca = false → Machine.exec (.xspiRead ca true words) s = .next { s with dev := (Dev.finish (e.undecoded ca)) }) ∧
        (caDecoded ca = true → ∀ (offs served : List Nat) (f : Dev),
          offs = (List.range (2 * words)).map (caByte ca) → served = offs.takeWhile (· < 0x400000) →
          f = { e with port := { e.port with
                  readCount := e.port.readCount + 1, dq := if e.link.driving then some (served.map e.winByte) else none } } →
          Machine.exec (.xspiRead ca true words) s = .next { s with dev :=
            (Dev.finish (if served.length < offs.length || served.any inReserved then f.undecoded ca else f)) })) ∧
      (e.answering = .identity → e.caMine ca = true → caDecoded ca = true → ∀ offs : List Nat,
        offs = ((List.range (2 * words)).map (caByte ca)).takeWhile (· < 0x200) → offs ≠ [] →
        Machine.exec (.xspiRead ca true words) s = .next { s with dev := (Dev.finish { e with port := { e.port with
          readCount := e.port.readCount + 1, dq := if e.link.driving then some (offs.map e.winByte) else none } }) })))
  ∧ (∀ (s : State) (ca : BitVec 48) (data : List (Byte × Bool)),
      (caRead ca = true → ∀ caDone,
        Machine.exec (.xspiWrite ca caDone data) s = Machine.exec (.xspiRead ca caDone (data.length / 2)) s) ∧
      (caRead ca = false →
        (∀ caDone, (caDone = false ∨ s.dev.answering ≠ .slice ∨ s.dev.caMine ca = false) →
          Machine.exec (.xspiWrite ca caDone data) s = .next { s with dev := (Dev.finish s.dev) }) ∧
        (s.dev.answering = .slice → s.dev.caMine ca = true →
          (caDecoded ca = false → Machine.exec (.xspiWrite ca true data) s = .next { s with dev := (Dev.finish (s.dev.undecoded ca)) }) ∧
          (caDecoded ca = true → ∀ e : Dev,
            ((s.dev.sys.ready = false ∧ e = { s.dev with port := { s.dev.port with
                prewrite := s.dev.port.prewrite + 1, writeCount := s.dev.port.writeCount + 1 } }) ∨
             (s.dev.sys.ready = true ∧ (s.dev.link.driving = true ∨ s.dev.link.formed = true) ∧ e = s.dev.busWrite (burstCells ca data))) →
            Machine.exec (.xspiWrite ca true data) s = .next { s with dev :=
              (Dev.finish (if (burstCells ca data).any (fun c => hostIgnored c.1) then e.undecoded ca else e)) }))))

/-- What a host write leaves in the window, at a device that runs alone with nothing under way: every byte of the slice reads
the last byte the burst carries for it where the host may write there (R93, R99, R102) and as before everywhere else. The write
is counted once. -/
def Obligations.HostWriteLands : Prop :=
  ∀ (s : State) (ca : BitVec 48) (data : List (Byte × Bool)),
    Quiet s.dev → Memory.wf s.dev.win.mem = true → s.dev.sys.ready = true → s.dev.link.driving = true → s.dev.link.formed = false →
    s.dev.answering = .slice → s.dev.caMine ca = true → caDecoded ca = true → caRead ca = false →
    ∃ t : State, Machine.exec (.xspiWrite ca true data) s = .next t ∧
      t.dev.port.writeCount = s.dev.port.writeCount + 1 ∧
      ∀ a : Nat, a < 0x400000 → t.dev.ram a =
        if hostIgnored a || s.dev.discards a then s.dev.ram a
        else (((burstCells ca data).reverse.find? fun c => c.1 == a).map (·.2)).getD (s.dev.ram a)

/-- A structure is the device's exactly when its owner byte reads 0xD1, and what the device writes when it hands one back is
0x00 into that byte and nothing into any other. -/
def Obligations.HandBackWritesOwnerByte : Prop :=
  ∀ (d : Dev) (a : Nat), a < 0x400000 → Memory.wf d.win.mem = true →
    (d.owns a = true ↔ d.ram a = 0xD1) ∧ (d.handBack a).ram a = 0 ∧ (d.handBack a).owns a = false ∧
    ∀ b, b ≠ a → (d.handBack a).ram b = d.ram b

/-- PROFILE_SECTION_HANDOVER of a section that the host has given: a section whose header or check word fails goes back with
SECTION_FIELD or SECTION_CRC, any other is in force, and a media section holds no cellar slot and no blind channel any longer.
SECTION_RELEASE, while no band and no record moves, gives a section back that the host asks for and that no admitted record
names. BLOCK_CHECK takes the block handed over first off the list and checks it when the device still owns it: an out-of-order
first-time block goes back with BLOCK_SEQ, any other is judged by its content. STATUS_WRITE writes the next status record, and
GAUGE_FRAME_WRITE, first after the reset, at a tick 50 µs after the frame before, or after 1 ms, the other gauge frame with the
next sequence at both ends. -/
def Obligations.SectionsAndWritersAnswer : Prop :=
  (∀ (s : State) (n : Fin 28), s.dev.operating = true →
      (s.dev.owns (secAddr n.val) = true → s.dev.secOn n.val = false →
        (∀ c, s.dev.sectionFault n.val = some c →
          Machine.exec (.profileSectionHandover n) s = .next { s with dev :=
            (Dev.finish ((s.dev.handBack (secAddr n.val)).note c
              (winDetail (secAddr n.val) 0 (16 * secType n.val + secIndex n.val) 0 0 0 0 0))) }) ∧
        (s.dev.sectionFault n.val = none → ∃ e : Dev,
          Machine.exec (.profileSectionHandover n) s = .next { s with dev := (Dev.finish e) } ∧
          e.secOn n.val = true ∧ e.rings = s.dev.rings ∧ e.port = s.dev.port ∧ e.heads = s.dev.heads ∧
          (secType n.val = 3 → e.win.loaded.get (fin4Of (secIndex n.val)) = none) ∧
          (secType n.val ≠ 3 → e = s.dev.setSec n.val true))) ∧
      (s.dev.line.band = none → s.dev.mover = none → s.dev.secOn n.val = true → s.dev.ram (secAddr n.val + 3) = 0x5A →
        s.dev.secNamed n.val = false → s.dev.followsTable n.val = false →
        Machine.exec (.sectionRelease n) s = .next { s with dev :=
          (Dev.finish (((s.dev.setSec n.val false).poke (secAddr n.val + 3) [0]).handBack (secAddr n.val))) }))
  ∧ (∀ s : State, s.dev.operating = true →
      (∀ (n : Nat) (rest : List Nat), s.dev.win.handed = n :: rest →
        Machine.exec .blockCheck s = .next { s with dev :=
          (Dev.finish (if s.dev.owns (poolBlock n) then Dev.checkBlock { s.dev with win := { s.dev.win with handed := rest } } n
            else { s.dev with win := { s.dev.win with handed := rest } })) }) ∧
      (s.dev.sys.ready = true → Machine.exec .statusWrite s = .next { s with dev := (Dev.finish s.dev.writeStatus) }) ∧
      (∀ (base : Nat) (seq : W32) (e : Dev), s.dev.sys.ready = true →
        (s.dev.win.gaugeSeq = 0 ∨ (s.dev.clk.tickNo ≠ 0 ∧ atOrAfter s.dev.clk.tickTs (s.dev.win.gaugeTs + 1250) = true) ∨
          s.dev.past s.dev.win.gaugeTs (1 * ms) = true) →
        base = (if s.dev.win.gaugeSel then 0x600 else 0x200) → seq = s.dev.win.gaugeSeq + 1 →
        e = { s.dev with win := { s.dev.win with gaugeSeq := seq, gaugeTs := s.dev.clk.now, gaugeSel := !s.dev.win.gaugeSel } } →
        Machine.exec .gaugeFrameWrite s = .next { s with dev :=
          (Dev.finish (((e.poke base (leBytes 4 seq.toNat)).poke (base + 4) e.gaugeBody).poke (base + 0x3FC) (leBytes 4 seq.toNat))) }))

/-- A status record goes into the slot at the status pointer and only when the device owns that slot; the pointer moves on by
one modulo 1,024, the record leaves the queue, and the slot is the host's. -/
def Obligations.StatusRecordTakesItsSlot : Prop :=
  ∀ (d : Dev) (q : QRec) (rest : List QRec), d.rings.queue = q :: rest → Memory.wf d.win.mem = true → d.rings.statusPtr < 1024 →
    q.bytes.length = 64 → d.rings.lost = 0 → d.rings.waiting = [] →
    (d.owns (statusSlot d.rings.statusPtr) = false → d.writeStatus = d) ∧
    (d.owns (statusSlot d.rings.statusPtr) = true →
      d.writeStatus.rings.queue = rest ∧ d.writeStatus.rings.statusPtr = (d.rings.statusPtr + 1) % 1024 ∧
      d.writeStatus.ram (statusSlot d.rings.statusPtr) = 0 ∧
      (∀ i, 1 ≤ i → i < 64 → d.writeStatus.ram (statusSlot d.rings.statusPtr + i) = q.bytes.getD i 0) ∧
      (∀ a, (a < statusSlot d.rings.statusPtr ∨ statusSlot d.rings.statusPtr + 64 ≤ a) → d.writeStatus.ram a = d.ram a))

/-! ## The job ring -/

/-- JOB_SLOT_EXAMINE at a device-owned slot not yet posted: a record whose check word fails goes back with RECORD_CRC and the
pointer stays; one out of sequence goes back with RECORD_SEQ; any other is posted and the pointer moves on. At a host-owned slot
nothing is posted. -/
def Obligations.JobSlotIsExamined : Prop :=
  ∀ (d : Dev) (r : List Byte), r = d.rams (jobSlot d.rings.jobPtr) 64 →
    (∀ s : State, s.dev = d → d.operating = true → d.sys.ready = true →
      Machine.exec .jobSlotExamine s = .next { s with dev := (Dev.finish (d.examine.admitAll (fun t => !knownType t) 1024)) }) ∧
    (d.owns (jobSlot d.rings.jobPtr) = false → d.examine = d) ∧
    (d.owns (jobSlot d.rings.jobPtr) = true → (∀ x ∈ d.rings.posted, x.2 ≠ d.rings.jobPtr) →
      (jobCrcOk r = false →
        d.examine = (d.handBack (jobSlot d.rings.jobPtr)).note cRecordCrc (slotDetail 0 r d.rings.jobPtr) ∧
        d.examine.rings.jobPtr = d.rings.jobPtr ∧ d.examine.rings.posted = d.rings.posted) ∧
      (jobCrcOk r = true → ∀ q, d.rings.jobNext = some q → rSeq r ≠ q →
        d.examine = (d.handBack (jobSlot d.rings.jobPtr)).note cRecordSeq (slotDetail q.toNat r d.rings.jobPtr)) ∧
      (jobCrcOk r = true → (d.rings.jobNext = none ∨ d.rings.jobNext = some (rSeq r)) →
        d.examine = { d with rings := { d.rings with
          posted := d.rings.posted ++ [(r, d.rings.jobPtr)], jobPtr := (d.rings.jobPtr + 1) % 1024, jobNext := some (rSeq r + 1) } }))

/-- The eleven admissions: where the first posted record is of the command's type and the device may admit one, it is admitted,
and then every posted record behind it whose type is unknown; where the first posted record is of another type, or none may be
admitted, nothing is. -/
def Obligations.RecordsAreAdmitted : Prop :=
  ∀ (s : State) (raw : List Byte) (slot : Nat) (rest : List (List Byte × Nat)) (c : Instr) (t : Nat),
    (c, t) ∈ [(Instr.note, 0x00), (.band, 0x10), (.feed, 0x20), (.backfeed, 0x21), (.seekMark, 0x22), (.cut, 0x30), (.solenoid, 0x40),
      (.adoptProfile, 0x50), (.learnMedia, 0x60), (.tasteHead, 0x61), (.barrier, 0x70)] →
    s.dev.rings.posted = (raw, slot) :: rest →
    (s.dev.mayAdmit = true → rType raw = t →
      Machine.exec c s = .next { s with dev :=
        (Dev.finish ((s.dev.admitHead raw slot rest).admitAll (fun t => !knownType t) 1024)) }) ∧
    ((s.dev.mayAdmit = false ∨ (rType raw ≠ t ∧ knownType (rType raw) = true)) →
      Machine.exec c s = .next { s with dev := (Dev.finish s.dev) })

/-- Admission takes the record out of its slot into the queue, and what it does then depends on its type: a NOTE begins and
completes with the first 16 bytes of its body, a BARRIER stays, a record of an unknown type or with a failing field is refused,
and while a STOP_DEVICE is in force so is any other that claims something (R130); every other record is enrolled. While a
BARRIER is admitted, while 256 records are, or under a sleep request, no record is admitted. -/
def Obligations.AdmissionRules : Prop :=
  (∀ (d e : Dev) (raw : List Byte) (slot : Nat) (rest : List (List Byte × Nat)),
      e = d.takeHead raw slot rest → e.rings.flushing = false →
      (knownType (rType raw) = false → d.admitHead raw slot rest = e.turnAway raw cBadType 0 0) ∧
      (rType raw = 0x00 → d.admitHead raw slot rest = (e.begin_ (rSeq raw)).close (rSeq raw) { result := (raw.drop 0x0C).take 16 }) ∧
      (rType raw = 0x70 → d.admitHead raw slot rest = e) ∧
      (knownType (rType raw) = true → rType raw ≠ 0x00 → rType raw ≠ 0x70 →
        (∀ c detail, e.check raw = .no c detail → d.admitHead raw slot rest = e.turnAway raw c 0 detail) ∧
        (∀ b, e.check raw = .go b →
          (∀ r, rZero raw = false → e.stoppedBy = some r → d.admitHead raw slot rest = e.turnAway raw r.code r.seq 0) ∧
          (rZero raw = true ∨ e.stoppedBy = none → d.admitHead raw slot rest = e.enrol raw b))))
  ∧ (∀ d : Dev, ((∃ a ∈ d.rings.admitted, rType a.raw = 0x70) ∨ 256 ≤ d.rings.admitted.length ∨ d.sys.sleepPin = true ∨
        96 ≤ d.rings.queue.length) →
      d.mayAdmit = false ∧ ∀ p n, d.admitAll p n = d)

/-! ## Lines and the press -/

/-- LINE_TICK at an operating device. A pulse before READY loads or ends a marked time. A due tick first starts the reactions
that wait for it (R19). With a line of the band due at it, the tick begins that line when its press result is complete, its
first plane is in and the line before has ended in time, and where that is not so at a chip of its own the line does not begin
and the band stops (TICK_OVERRUN); so it does when a kill input holds a port, or a frame that the master's pulse waits for has
not come; with no line due at a device without a band it only counts. A raised tick counts by one, takes the given time, and
asks for a tick sample set unless a domain runs from its fallback source; on the ring it goes out as a pulse, and a plan is due
for the period it begins; nothing else changes. -/
def Obligations.LineTicksAnswer : Prop :=
  (∀ (s : State) (fine : Fin 10),
      ((s.dev.link.mark.isSome = true ∨ s.dev.link.markAt.isSome = true) →
        Machine.exec (.lineTick fine) s = .next { s with dev := (Dev.finish s.dev.markPulse) }) ∧
      (∀ (ts : Ts) (f e : Dev), s.dev.link.mark = none → s.dev.link.markAt = none → s.dev.operating = true → s.dev.sys.ready = true →
        s.dev.tickNow = some ts → f = Dev.notePulse { s.dev with link := { s.dev.link with edge := fine } } →
        e = Dev.tickReacts { f with mot := { f.mot with tickDue := none } } →
        (e.lineDue = false → e.line.band = none → (e.mover = none ∨ e.framesMissing = false) →
          Machine.exec (.lineTick fine) s = .next { s with dev := (Dev.finish ((e.raiseTick ts).tickWork ts none)) }) ∧
        (e.lineDue = true → e.framesMissing = true →
          Machine.exec (.lineTick fine) s = .next { s with dev := (Dev.finish (e.stopBand cLinkDown 0 true)) }) ∧
        (e.lineDue = true → e.framesMissing = false →
          (∀ c, e.tickKill = some c →
            Machine.exec (.lineTick fine) s = .next { s with dev := (Dev.finish ((e.stopBand c 0 true).noLine ts)) }) ∧
          (∀ p, e.tickKill = none → e.linePending = some p → p.complete = true → e.line.shiftDone = true → e.fireLate = false →
            Machine.exec (.lineTick fine) s = .next { s with dev := (Dev.finish ((e.raiseTick ts).tickWork ts (some p))) }) ∧
          (e.tickKill = none → e.wired = false →
            (e.linePending = none ∨ (∃ p, e.linePending = some p ∧ p.complete = false) ∨ e.line.shiftDone = false ∨ e.fireLate = true) →
            Machine.exec (.lineTick fine) s = .next { s with dev := (Dev.finish (e.overrunStop.noLine ts)) }))))
  ∧ (∀ (d : Dev) (ts : Ts),
      (d.raiseTick ts).clk = { d.clk with tickNo := d.clk.tickNo + 1, tickTs := ts } ∧
      (d.raiseTick ts).line = { d.line with sampled := !d.onFallback } ∧
      d.raiseTick ts = { d with clk := (d.raiseTick ts).clk, line := (d.raiseTick ts).line, link := (d.raiseTick ts).link } ∧
      (d.onRing = false → (d.raiseTick ts).link = { d.link with ticked := true, planOut := false, planOwed := false }))

/-- SAMPLE_SET_COMPLETE takes the set of the latest tick and sends it on; START_SAMPLE_SET_DONE takes the start or resume set
under way; BAND_RESUME starts a band at rest once its conditions hold. At a formed secondary the two sets come by the link.
PRESS_LINE_COMPLETE completes the pending line and moves the cross-check on to the next of the band's blocks. Where two slices
in service differ, with two slices it is PRESS_DISAGREE and with more the odd one out is fenced and leaves the pending line.
SLICE_PARITY_ERROR fences its slice. -/
def Obligations.LinesArePressed : Prop :=
  (∀ s : State,
      (∀ set : SampleSet, s.dev.operating = true → s.dev.pairSecondary = false → s.dev.line.sampled = true →
        Machine.exec (.sampleSetComplete set) s = .next { s with dev :=
          (Dev.finish ((s.dev.tickSet set).sendSet 0 s.dev.clk.tickTs set).sendPlan) }) ∧
      (∀ (set : SampleSet) (t : Ts), s.dev.operating = true → s.dev.pairSecondary = false → s.dev.line.startTs = some t →
        atOrAfter s.dev.clk.now t = true →
        Machine.exec (.startSampleSetDone set) s = .next { s with dev := (Dev.finish ((s.dev.startSet set t).sendSet 1 t set)) }) ∧
      (∀ b : BandRt, s.dev.line.band = some b → b.phase = .resting → s.dev.bandMayStart b = true →
        Machine.exec .bandResume s = .next { s with dev := (Dev.finish s.dev.startBand) }))
  ∧ (∀ s : State, s.dev.operating = true →
      (∀ (p : PendLine) (e : Dev), s.dev.line.pend = some p → p.complete = false →
        e = { s.dev with line := { s.dev.line with pend := some { p with complete := true }, checkBlock := (s.dev.line.checkBlock + 1) % max s.dev.bandBlocks 1 } } →
        Machine.exec (.pressLineComplete .agree) s = .next { s with dev := (Dev.finish e) } ∧
        (∀ x y w, s.dev.slicesIn ≤ 1 ∨ x = y ∨ s.dev.sliceIn x = false ∨ s.dev.sliceIn y = false →
          Machine.exec (.pressLineComplete (.differ x y w)) s = .next { s with dev := (Dev.finish e) }) ∧
        (∀ x y w, s.dev.slicesIn = 2 → x ≠ y → s.dev.sliceIn x = true → s.dev.sliceIn y = true →
          Machine.exec (.pressLineComplete (.differ x y w)) s = .next { s with dev := (Dev.finish (s.dev.raiseOwn
            { code := cPressDisagree, sev := some .stopDevice, lvl := .device, job := s.dev.bandJob
              detail := pressDetail (min x.val y.val) 2 s.dev.nextLineTick 2 0 0 0 })) }) ∧
        (∀ x y w, 2 < s.dev.slicesIn → x ≠ y → s.dev.sliceIn x = true → s.dev.sliceIn y = true →
          Machine.exec (.pressLineComplete (.differ x y w)) s = .next { s with dev :=
            (Dev.finish ((s.dev.fence w 2 s.dev.nextLineTick).losePend w)) })) ∧
      (∀ k : Fin 4, (s.dev.line.slices.get k).fenced = false →
        Machine.exec (.sliceParityError k) s = .next { s with dev := (Dev.finish ((s.dev.fence k 1 s.dev.nextLineTick).losePend k)) }))

/-- The supply constants of R225: over the bounded sample v, K_m is the floor of 25,000 × 2^K_sh / v² and lies in 2,048 to
4,095, K_sh is the one exponent for which it does, and lies between 15 and 21. Scaling truncates (R226, R227): for an energy and
a resistance of 12 bits and any supply, the answer has 12 bits, is 0 when either is, and never stands for more than the energy
it came from. -/
def Obligations.SupplyConstants : Prop :=
  (∀ v u : Nat, u = min (max v 500) 4095 →
      (kPair v).1 = 25000 * 2 ^ (kPair v).2 / (u * u) ∧ 2048 ≤ (kPair v).1 ∧ (kPair v).1 ≤ 4095 ∧
      15 ≤ (kPair v).2 ∧ (kPair v).2 ≤ 21 ∧
      ∀ k : Nat, 2048 ≤ 25000 * 2 ^ k / (u * u) → 25000 * 2 ^ k / (u * u) ≤ 4095 → k = (kPair v).2)
  ∧ (∀ E R v : Nat, E < 4096 → R < 4096 →
      scaleE (kPair v).1 (kPair v).2 E R ≤ 4095 ∧
      ((E = 0 ∨ R = 0) → scaleE (kPair v).1 (kPair v).2 E R = 0) ∧
      scaleE (kPair v).1 (kPair v).2 E R * 2 ^ (kPair v).2 ≤ E * R * (kPair v).1)

/-- Pixel values to levels (R164). The decayed state and substrate (R218). -/
def Obligations.PixelLevelsAndDecay : Prop :=
  ((levelOf 1 0 = 0 ∧ levelOf 1 1 = 15) ∧ (levelOf 2 0 = 0 ∧ levelOf 2 1 = 5 ∧ levelOf 2 2 = 10 ∧ levelOf 2 3 = 15) ∧
      ∀ v, v < 16 → levelOf 4 v = v)
  ∧ (∀ r th : Nat, (r = 4096 → decayed r th = th) ∧ (r ≠ 4096 → decayed r th = (th * r + 2048) >>> 12))

/-- Slot selection (R228) over any order that names no slot twice: the achieved time is the sum of the selected slots' durations
and never above the limit, what remains is what was wanted less it, and no slot outside the class mask or outside the order is
taken. -/
def Obligations.SlotSelectionIsBounded : Prop :=
  ∀ (dur : List Nat) (mask tmax : Nat) (order : List Nat) (want rem : Int) (ta sel : Nat), order.Nodup →
    selectSlots dur mask tmax order want 0 0 = (rem, ta, sel) →
    ta ≤ tmax ∧ rem = want - ta ∧ (∀ s, sel.testBit s = true → s ∈ order ∧ mask.testBit s = true) ∧
    ta = ((order.filter fun s => sel.testBit s).map fun s => dur.getD s 0).foldl (· + ·) 0

/-- One dot's update written out (R224, R229, R231). With E_c the corrected energy, C the ceiling and E_fin the lesser of them,
a dot whose on-time t is 0 or that has no target takes θ_lat, carry 0, no slot and no energy; any other takes the slots that the
selection gives, the carry (rem + h) shifted and bounded to −128 to 127, the delivered energy min(E_fin × ta / t, C), and the
state θ_lat plus the heat of it, bounded to 4,095. -/
def Obligations.DotUpdateByTheRules : Prop :=
  ∀ (g : PortFigs) (w : BitVec 32) (carry : Int) (lo thd hi sdec et cls : Nat) (p : Plan) (thl R ec ef t tmax : Nat) (o : DotOut),
    p = g.plan → o = dotUpdate g w carry lo thd hi sdec et cls →
    thl = (clampI 0 4095 (thd + ((p.lateral : Int) * ((lo : Int) + hi - 2 * thd)) / 256)).toNat →
    R = (if wRes w = 0 then g.rNom else wRes w) →
    ec = min (et * corrF g.q (clampI (-2048) 2047 (g.thx + (sdec / 16 : Nat) + thl)) / 2048) 4095 →
    ef = min ec g.ceil → t = scaleE g.km g.ksh ef R → tmax = scaleE g.km g.ksh g.ceil R →
    ((et = 0 ∨ t = 0) → wState o.word = thl ∧ wCarry o.word = 0 ∧ o.sel = 0 ∧ o.ea = 0) ∧
    (et ≠ 0 → t ≠ 0 → ∀ (rem : Int) (ta sel : Nat) (h : Int),
      selectSlots p.dur (p.mask.getD cls 0) tmax (p.greedy.take p.s) (max ((t : Int) + carry * (2 ^ p.carryShift : Nat)) 0) 0 0 = (rem, ta, sel) →
      h = (if p.carryShift = 0 then 0 else (2 ^ (p.carryShift - 1) : Nat)) →
      o.sel = sel ∧ wCarry o.word = min (max ((rem + h) / (2 ^ p.carryShift : Nat)) (-128)) 127 ∧
      o.ea = min (ef * ta / t) g.ceil ∧ wState o.word = min (thl + o.ea * p.heatGain / 256) 4095)

/-- One dot's update (R215, R224, R228 to R231): the resistance stands; a dot without a target fires no slot, carries 0 and
books no energy; no dot books more than the ceiling, and none takes a slot outside its class mask. -/
def Obligations.DotUpdateIsBounded : Prop :=
  ∀ (g : PortFigs) (w : BitVec 32) (carry : Int) (lo thd hi sdec et cls : Nat) (o : DotOut),
    o = dotUpdate g w carry lo thd hi sdec et cls →
    wRes o.word = wRes w ∧ o.ea ≤ g.ceil ∧
    (et = 0 → o.sel = 0 ∧ o.ea = 0 ∧ wCarry o.word = 0 ∧ o.trimmed = false) ∧
    ((g.plan.greedy.take g.plan.s).Nodup → ∀ s, o.sel.testBit s = true → s < 16 → (g.plan.mask.getD cls 0).testBit s = true)

/-- The derate step of a commit (R308) moves the derate by at most one, within 0 to 24, upward only while a port is over its
soft limit, and at once when the first one is. -/
def Obligations.DerateMovesByOne : Prop :=
  ∀ d : Dev, d.line.derate ≤ 24 →
    d.derateStep.line.derate ≤ 24 ∧ d.derateStep.line.derate ≤ d.line.derate + 1 ∧ d.line.derate ≤ d.derateStep.line.derate + 1 ∧
    ((∀ p, (d.heads.get p).soft = false) → d.derateStep.line.derate ≤ d.line.derate) ∧
    ((∃ p, (d.heads.get p).soft = true) → d.line.derateOn = false → d.derateStep.line.derate = min 24 (d.line.derate + 1)) ∧
    { d.derateStep with line := d.line } = d

/-! ## Heads -/

/-- PLANE_SHIFT_START takes the first plane of a complete pending line, trimmed to the budget, into the ports of the band, and
an incomplete one is an overrun. SLOT_TRANSFER latches the plane of the next slot at every port of the line, sorts its strobe
groups into phases, asserts the first and shifts the plane after it. PHASE_BOUNDARY goes to the next phase, and after the last
one releases every strobe and ends the slot, after the last slot the line. -/
def Obligations.FiringAnswers : Prop :=
  ∀ (s : State) (rb : Quad (List Bool)), s.dev.operating = true →
    (∀ (b : BandRt) (pn : PendLine), s.dev.line.band = some b → b.phase = .firing → s.dev.line.shiftDone = false →
      (∀ f, s.dev.line.fire = some f → f.durs.length ≤ f.slot) → s.dev.line.pend = some pn →
      (pn.complete = false → Machine.exec (.planeShiftStart rb) s = .next { s with dev := (Dev.finish s.dev.overrunStop) }) ∧
      (pn.complete = true → ∀ (plan : Plan) (q : PendLine), plan = (match s.dev.line.following with | some n => n.plan | none => b.plan) →
        q = s.dev.trimLine pn plan →
        Machine.exec (.planeShiftStart rb) s = .next { s with dev :=
          (Dev.finish ((Dev.each4 (Dev.shiftStarts { s.dev with line := { s.dev.line with shiftDone := true, pend := some q } })
            (fin4.filter fun p => !(fin4.filter fun p => (pn.outs.get p).isSome).contains p)
            (fun p d => d.onHead p fun h => { h with shiftReg := none })).shiftIn rb (fin4.filter fun p => (pn.outs.get p).isSome)
            q.planes 0)) })) ∧
    (∀ f : FireLine, s.dev.line.fire = some f → f.ended = false → f.phases = [] → f.slot < f.durs.length → ∃ e : Dev,
      Machine.exec (.slotTransfer rb) s = .next { s with dev := (Dev.finish e) } ∧
      (∃ g, e.line.fire = some g ∧ g.slot = f.slot + 1 ∧ g.phase = 0 ∧ g.phases ≠ [] ∧ g.tick = f.tick ∧ g.ended = false)) ∧
    (∀ f : FireLine, s.dev.line.fire = some f → f.ended = false → f.phases ≠ [] →
      (f.phase + 1 < f.phases.length →
        Machine.exec .phaseBoundary s = .next { s with dev :=
          (Dev.finish (Dev.strobePhase { s.dev with line := { s.dev.line with fire := some { f with phase := f.phase + 1 } } }
            (f.phases.getD (f.phase + 1) []))) }) ∧
      (f.phases.length ≤ f.phase + 1 →
        Machine.exec .phaseBoundary s = .next { s with dev :=
          (Dev.finish (Dev.strobePhase { s.dev with line := { s.dev.line with fire := some { f with
            phases := [], phase := 0, ended := decide (f.durs.length ≤ f.slot)
            endTs := if decide (f.durs.length ≤ f.slot) then s.dev.clk.now else f.endTs } } } [])) }))

/-- No strobe of a port is asserted by a phase while a kill input holds the port or its strobes of this line are suppressed, and
what a phase asserts at a port are the groups it lists for it; nothing but the strobes changes. A kill input takes a port's
strobes off at once and stays until it is released; the ports not named keep theirs. -/
def Obligations.StrobeGating : Prop :=
  (∀ (d : Dev) (l : List (Nat × Nat)) (p : Fin 4),
      ((d.heads.get p).kills ≠ [] ∨ d.line.fire = none ∨
        (∃ f, d.line.fire = some f ∧ f.killed.getLsbD p.val = true) → ((d.strobePhase l).heads.get p).strobes = 0) ∧
      (∀ (f : FireLine) (g : Nat), g < 8 → d.line.fire = some f → f.killed.getLsbD p.val = false → (d.heads.get p).kills = [] →
        (((d.strobePhase l).heads.get p).strobes.getLsbD g = true ↔ (p.val, g) ∈ l)) ∧
      { d.strobePhase l with heads := d.heads } = d ∧
      { (d.strobePhase l).heads.get p with strobes := (d.heads.get p).strobes } = d.heads.get p)
  ∧ (∀ (d : Dev) (p q : Fin 4) (code : W16) (sub : Nat),
      ((d.kill [p] code sub).heads.get p).strobes = 0 ∧ code ∈ ((d.kill [p] code sub).heads.get p).kills ∧
      (q ≠ p → (d.kill [p] code sub).heads.get q = d.heads.get q) ∧
      code ∉ (((d.kill [p] code sub).unkill [p] code).heads.get p).kills)

/-- The monitors of a port: STROBE_GUARD, the hard temperature limit, the over-voltage and an open head kill the port's strobes
under their own code, raise their fault at that port, each in the form its chapter gives, and open the port's shadow (R543);
STROBE_STUCK takes HMEAS high, with or without a clock, and stops the device, but in a personality error. HPn_OPEN at the level
that its card or the default calls open, past its filter, opens the head; in Doze it only kills. The other level clears it: the
condition ends and its kill is free. HARD_LIMIT_RECHECK with the media at rest: the trip ends at 10.0 K, 80 eighths, below the
hard limit and not above. VH_LOW_RECHECK: a reading below 1.05 times the minimum starts the count again, twenty in a row at or
above it end the condition. -/
def Obligations.HeadMonitorsAnswer : Prop :=
  (∀ (s : State) (p : Fin 4), 
      (∀ g : Fin 8, s.dev.operating = true →
        Machine.exec (.strobeGuard p g) s = .next { s with dev :=
          (Dev.finish (((s.dev.kill [p] cStrobeGuard p.val).raisePort cStrobeGuard p
            (headDetail (s.dev.lineFor [p]).1 (s.dev.lineFor [p]).2 g.val 0 0 0)).shadowPorts [p])) }) ∧
      (∀ g : Fin 8, s.dev.persError = false → ∃ (r : Rise) (e : Dev),
        r.code = cStrobeStuck ∧ r.sev = some .stopDevice ∧ r.lvl = .device ∧ r.port = p.val ∧ r.ports = 2 ^ p.val ∧
        e = { s.dev with sys := { s.dev.sys with hmeas := true, hmeasStuck := true, hmeasFallTs := none } } ∧
        Machine.exec (.strobeStuck p g) s = .next { s with dev := (Dev.finish (e.raise r)) }) ∧
      (s.dev.alive = true → s.dev.portOn p = true → (s.dev.heads.get p).hardTrip = false →
        Machine.exec (.headOvertempHard p) s = .next { s with dev :=
          (Dev.finish ((((s.dev.kill [p] cHeadOvertempHard p.val).onHead p fun h => { h with hardTrip := true }).raisePort cHeadOvertempHard p
            (headDetail (s.dev.lineFor [p]).1 (s.dev.lineFor [p]).2 0 (s.dev.tempOf p (s.dev.heads.get p).rawTh) (s.dev.hardLimit p) 0)).shadowPorts
              [p])) }) ∧
      (∀ c : Adc, s.dev.alive = true → s.dev.portOn p = true → (s.dev.heads.get p).vhHighOn = false →
        Machine.exec (.vhHigh p c) s = .next { s with dev :=
          (Dev.finish ((((s.dev.kill [p] cVhHigh p.val).onHead p fun h => { h with vhHighOn := true }).raisePort cVhHigh p
            (headDetail (s.dev.lineFor [p]).1 (s.dev.lineFor [p]).2 0 (vhOf c.toNat) 3690 0)).shadowPorts [p])) }) ∧
      (∀ (high : Bool) (ns : BitVec 16) (e : Dev), s.dev.alive = true → s.dev.portOn p = true → filterNs (s.dev.openInput p) ≤ ns.toNat →
        s.dev.openActive p high = true → e = (s.dev.onHead p fun h => { h with openPin := true }) →
        Machine.exec (.headOpen p high ns) s = .next { s with dev :=
          (Dev.finish (if e.awake then ((e.kill [p] cHeadOpen p.val).raisePort cHeadOpen p
              (headDetail (e.lineFor [p]).1 (e.lineFor [p]).2 0 0 0 0)).shadowPorts [p]
            else e.kill [p] cHeadOpen p.val)) }) ∧
      (∀ high : Bool, s.dev.alive = true → (s.dev.heads.get p).openPin = true → s.dev.openActive p high = false →
        Machine.exec (.headOpenClear p high) s = .next { s with dev :=
          (Dev.finish (((s.dev.onHead p fun h => { h with openPin := false }).unkill [p] cHeadOpen).endCond cHeadOpen p.val)) }))
  ∧ (∀ (s : State) (p : Fin 4) (c : Adc), s.dev.operating = true →
      (∀ e : Dev, (s.dev.heads.get p).hardTrip = true → s.dev.mot.travel = .rest → e = (s.dev.onHead p fun h => { h with rawTh := c }) →
        Machine.exec (.hardLimitRecheck p c) s = .next { s with dev :=
          (Dev.finish (if e.tempOf p c ≤ e.hardLimit p - 80
            then ((e.onHead p fun h => { h with hardTrip := false }).unkill [p] cHeadOvertempHard).endCond cHeadOvertempHard p.val
            else e)) }) ∧
      (∀ (n : Nat) (e : Dev), (s.dev.heads.get p).vhLow = some n → s.dev.vhEvaluated = true → e = (s.dev.onHead p fun h => { h with rawVh := c }) →
        (vhOf c.toNat * 20 < e.vhMin p * 21 →
          Machine.exec (.vhLowRecheck p c) s = .next { s with dev := (Dev.finish (e.onHead p fun h => { h with vhLow := some 0 })) }) ∧
        (e.vhMin p * 21 ≤ vhOf c.toNat * 20 → n + 1 < 20 →
          Machine.exec (.vhLowRecheck p c) s = .next { s with dev := (Dev.finish (e.onHead p fun h => { h with vhLow := some (n + 1) })) }) ∧
        (e.vhMin p * 21 ≤ vhOf c.toNat * 20 → 19 ≤ n →
          Machine.exec (.vhLowRecheck p c) s = .next { s with dev :=
            (Dev.finish ((e.onHead p fun h => { h with vhLow := none }).endCond cVhLow p.val)) })))

/-- A tasting run's steps, each after its dwell: with open readings in range the first dot is driven; with a reading out of
range the record is refused with TASTE_SOURCE, and abandoned with it when a dot has been found already. A dot's reading is taken
after 400 µs, before a dot whose number is a multiple of 64 after another 400 µs for the open reading (the two in one command:
log entry 126). After the last dot's reading the record completes and the release begins; a run that yields releases, and after
the release waits for the band. -/
def Obligations.TastingAnswers : Prop :=
  ∀ (s : State) (t : Taste), s.dev.operating = true → s.dev.taste = some t →
    (∀ (sums : Quad (BitVec 16)) (u : Taste), t.stage = 0 → s.dev.past t.stageTs (2 * ms) = true →
      u = { t with open16 := sums.mapIdx fun _ v => v.toNat } →
      ((∀ p ∈ s.dev.tastePorts u, openOk (sums.get p) = true) →
        Machine.exec (.tasteSetupDone sums) s = .next { s with dev :=
          (Dev.finish (if t.yielding then s.dev.tasteRelease u else s.dev.tasteDot u)) }) ∧
      ((∃ p ∈ s.dev.tastePorts u, openOk (sums.get p) = false) → t.found = Quad.all [] →
        Machine.exec (.tasteSetupDone sums) s = .next { s with dev :=
          (Dev.finish (s.dev.closeTaste u { res := .refused, code := cTasteSource })) }) ∧
      ((∃ p ∈ s.dev.tastePorts u, openOk (sums.get p) = false) → (∃ p, t.found.get p ≠ []) →
        Machine.exec (.tasteSetupDone sums) s = .next { s with dev :=
          (Dev.finish ((s.dev.tasteRelease u).completeTaste u { res := .abandoned, code := cTasteSource })) })) ∧
    (∀ (sums : Quad (BitVec 16)) (reopen : Option (Quad (BitVec 16))) (u : Taste) (x : Dev × Taste) (stop : Nat), t.stage = 1 →
      ((t.dot % 64 ≠ 0 ∧ reopen = none ∧ u = t ∧ s.dev.past t.stageTs (400 * us) = true) ∨
       (t.dot % 64 = 0 ∧ (∃ o, reopen = some o ∧ u = { t with open16 := o.mapIdx fun _ v => v.toNat } ∧ ∀ p ∈ s.dev.tastePorts u, openOk (o.get p) = true) ∧
        s.dev.past t.stageTs (800 * us) = true)) →
      x = (s.dev.tastePorts u).foldl (fun (x : Dev × Taste) (p : Fin 4) => x.1.readDot x.2 p (sums.get p).toNat) (s.dev, u) →
      stop = (match x.1.adm x.2.seq with | some a => tFirst a.raw + tCount a.raw | none => 0) →
      Machine.exec (.tasteDotDone sums reopen) s = .next { s with dev :=
        (Dev.finish (if stop ≤ x.2.dot + 1 then (x.1.tasteRelease { x.2 with dot := x.2.dot + 1 }).completeTaste { x.2 with dot := x.2.dot + 1 } {}
          else if x.2.yielding = true then x.1.tasteRelease { x.2 with dot := x.2.dot + 1 }
          else x.1.tasteDot { x.2 with dot := x.2.dot + 1 })) }) ∧
    (t.stage = 2 → s.dev.past t.stageTs (2 * ms) = true →
      Machine.exec .tasteReleaseDone s = .next { s with dev := (Dev.finish { s.dev with
        taste := if t.ended then none else some { t with stage := 3, yielding := false, stageTs := s.dev.clk.now } }) })

/-! ## Encoders, axes and media -/

/-- ENCODER_COUNT and AENC_COUNT at a device that follows its own encoders: one count up or down. TICK_STALLED, while ticks come
from the encoder and 100 ms after the planned time of the boundary that the watermark awaits (a band's next tick, the next
boundary of a moving record's forward travel), is a PAUSE. MOTOR_STEP, accepted from the time on that the segment under way
gives its next microstep: AX0 takes it and at the end of the segment goes on to the next line; AX3 takes it and at the end of
its last segment has arrived. Before that time nothing is done. A ribbon axis steps toward the floor of its ratio times AX0's
trajectory. A step within the 2 ms after energising is not taken, nor is one of AX0 while a line from rest waits for its tick
under step or timer ticks. -/
def Obligations.EncodersAndStepsAnswer : Prop :=
  (∀ s : State, s.dev.operating = true →
      (∀ up : Bool, s.dev.pairSecondary = false →
        Machine.exec (.encoderCount up) s = .next { s with dev :=
          (Dev.finish (s.dev.counted (if up then s.dev.mot.menc + 1 else s.dev.mot.menc - 1))) } ∧
        Machine.exec (.aencCount up) s = .next { s with dev :=
          (Dev.finish (s.dev.auxCounted (if up then s.dev.mot.aenc + 1 else s.dev.mot.aenc - 1))) }) ∧
      (∀ t : Ts, s.dev.tickSource = 1 → s.dev.mot.tickDue = none →
        ((∃ b, s.dev.line.band = some b ∧ b.phase = .firing ∧ s.dev.bandMoves = true ∧ t = s.dev.line.planned) ∨
          (s.dev.line.band = none ∧ s.dev.forwardMove = true ∧ s.dev.mot.dues.head? = some t)) →
        atOrAfter s.dev.clk.now (t + BitVec.ofNat 48 (100 * ms)) = true →
        Machine.exec .tickStalled s = .next { s with dev :=
          (Dev.finish (s.dev.raise { code := cTickStalled, sev := some .pause, lvl := .device, job := s.dev.bandJob })) }))
  ∧ (∀ s : State, s.dev.operating = true →
      (∀ (x : Fin 4) (t : Ts), (s.dev.axes.get x).readyTs = some t → atOrAfter s.dev.clk.now t = false →
        Machine.exec (.motorStep x) s = .next { s with dev := (Dev.finish s.dev) }) ∧
      (∀ b : BandRt, s.dev.line.band = some b → b.fromRest = true → s.dev.tickSource ≠ 1 →
        Machine.exec (.motorStep 0) s = .next { s with dev := (Dev.finish s.dev) }) ∧
      (∀ (g : Seg) (rest : List Seg) (e : Dev), (∀ t, s.dev.axes.a.readyTs = some t → atOrAfter s.dev.clk.now t = true) →
        s.dev.axes.a.segs = g :: rest →
        (s.dev.come (s.dev.axes.a.segTs + BitVec.ofNat 50 (g.stepAt s.dev.axes.a.lastU (s.dev.axes.a.done + 1))) = false →
          Machine.exec (.motorStep 0) s = .next { s with dev := (Dev.finish s.dev) }) ∧
        (s.dev.come (s.dev.axes.a.segTs + BitVec.ofNat 50 (g.stepAt s.dev.axes.a.lastU (s.dev.axes.a.done + 1))) = true →
          ((∀ b, s.dev.line.band = some b → b.fromRest = false) ∨ s.dev.tickSource = 1) →
          e = (s.dev.segStep 0 g).jamCheck →
          Machine.exec (.motorStep 0) s = .next { s with dev :=
            (Dev.finish (if g.dpos ≤ e.axes.a.done then e.lineTravelled g else e)) })) ∧
      (∀ (g : Seg) (rest : List Seg) (e : Dev), (∀ t, s.dev.axes.d.readyTs = some t → atOrAfter s.dev.clk.now t = true) →
        s.dev.axes.d.segs = g :: rest →
        s.dev.come (s.dev.axes.d.segTs + BitVec.ofNat 50 (g.stepAt s.dev.axes.d.lastU (s.dev.axes.d.done + 1))) = true →
        e = (s.dev.segStep 3 g).onAxis 3 (Axis.nextSegs 200) →
        (e.axes.d.segs ≠ [] → Machine.exec (.motorStep 3) s = .next { s with dev := (Dev.finish e) }) ∧
        (e.axes.d.segs = [] → Machine.exec (.motorStep 3) s = .next { s with dev := (Dev.finish (e.auxArrived.afterCut e)) })) ∧
      (∀ x : Fin 4, (x = 1 ∨ x = 2) → (∀ t, (s.dev.axes.get x).readyTs = some t → atOrAfter s.dev.clk.now t = true) →
        (s.dev.axes.get x).energised = true → engaged (s.dev.axes.get x).entry = true →
        s.dev.traceNow * eRatioS (s.dev.axes.get x).entry / 2 ^ 32 ≠ (s.dev.axes.get x).pos →
        Machine.exec (.motorStep x) s = .next { s with dev := (Dev.finish (s.dev.microstep x
          (decide ((s.dev.axes.get x).pos < s.dev.traceNow * eRatioS (s.dev.axes.get x).entry / 2 ^ 32)))) }))

/-- The watermark only rises with the media count: where a count stays within the tolerance below it, no jam detection of AX0
applies and lines do not run on encoder ticks, a new count leaves the count, the greater of it and the old watermark, no
excursion, and nothing else changed. -/
def Obligations.WatermarkOnlyRises : Prop :=
  ∀ (d : Dev) (m : Int), d.tickSource ≠ 1 → d.jamOnAx0 = false → max d.mot.mark m - (mTol d.curMedia : Int) ≤ m →
    d.counted m = { d with mot := { d.mot with menc := m, mark := max d.mot.mark m, excursion := false } }

/-- One microstep moves its axis by one position, and no other axis; at an axis without stall detection nothing but the axis
and, at a full step, the ageing ledger changes. An axis that is not energised takes no full step and adds nothing to the ledger.
-/
def Obligations.MicrostepMovesOneAxis : Prop :=
  ∀ (d : Dev) (x : Fin 4) (fwd : Bool), eStallOn (d.axes.get x).entry = false →
    ((d.microstep x fwd).axes.get x).pos = (d.axes.get x).pos + (if fwd then 1 else -1) ∧
    (∀ y, y ≠ x → (d.microstep x fwd).axes.get y = d.axes.get y) ∧
    { d.microstep x fwd with axes := d.axes, age := d.age } = d ∧
    ((d.axes.get x).energised = false → (d.microstep x fwd).age = d.age)

/-- AXIS_RELEASE after release_time of rest lets go of the axis; AXIS_OVERCURRENT holds every gate of its axis off, shadows the
gates for 500 ms and is a STOP_DEVICE, unless the winding's gates were turned on less than 200 ns before; DC_BRAKE_END after 20
ms ends the travel of AX3; DC_JAM_CHECK raises AXIS_JAM when fewer counts than the limit came in the past 50 ms of drive.
CHOPPER_PHASE_END at a winding of an energised axis that is not held. An off phase ends once it has lasted its length: the
winding goes on, in the direction of its target, unless its code is 0. An on phase ends no earlier than its blanking time: it
steps the shift register of the axis, which with motor_toff (whole 20 ns while MOTION is on its fallback source) gives the off
phase its length, and the drive mode the part of it that decays fast; a phase of 200 µs at a code of 125 or more, at rest or
below a quarter of the top speed, counts, any other ends the count, and the sixteenth in a row is WINDING_OPEN. A phase that is
too short ends nothing. A winding B of a DC axis and AX3 under its brake are not chopped. At the first channel of a pulse, an
off phase that has lasted its length turns on every gate of its run. -/
def Obligations.AxisEventsAnswer : Prop :=
  (∀ s : State, s.dev.operating = true →
      (∀ (x : Fin 4) (a : Axis), a = s.dev.axes.get x → a.energised = true → a.moving = false → a.segs = [] → eRelease a.entry ≠ 65535 →
        s.dev.past a.restTs (eRelease a.entry * ms) = true → (x = 3 ∨ s.dev.groupHeld = false) →
        Machine.exec (.axisRelease x) s = .next { s with dev := (Dev.finish (s.dev.onAxis x fun a =>
          { a with energised := false, released := true, a := { a.a with on := false }, b := { a.b with on := false } })) }) ∧
      (∀ (x : Fin 4) (b : Bool) (mv : BitVec 16) (e : Dev), (s.dev.axes.get x).held = false → s.dev.justOn x b = false →
        e = ((s.dev.onAxis x fun a => { a with held := true, a := { a.a with on := false }, b := { a.b with on := false } }).shadow
          .gates none (some (500 * ms))) →
        Machine.exec (.axisOvercurrent x b mv) s = .next { s with dev := (Dev.finish (e.raise
          { code := cAxisOvercurrent, sub := x.val, sev := some .stopDevice, lvl := .device, job := e.bandJob
            detail := e.motionDetail x.val (b2n b) mv.toNat (e.motorVfs * 3 / 2) e.nextLineTick })) }) ∧
      (s.dev.mot.auxBrake = true → s.dev.past s.dev.axes.d.restTs (20 * ms) = true →
        Machine.exec .dcBrakeEnd s = .next { s with dev :=
          (Dev.finish ((Dev.auxArrived { s.dev with mot := { s.dev.mot with auxBrake := false, auxTarget := none } }).afterCut s.dev)) }) ∧
      (∀ n : Nat, s.dev.auxDc = true → s.dev.mot.auxTarget ≠ none → s.dev.mot.auxBrake = false → s.dev.past s.dev.mot.auxTs (50 * ms) = true →
        n = (s.dev.mot.auxCounts.filter fun t => !s.dev.past t (50 * ms)).length →
        ((eJamOn s.dev.axes.d.entry = false ∨ eJam s.dev.axes.d.entry * 16 ≤ n) →
          Machine.exec .dcJamCheck s = .next { s with dev := (Dev.finish s.dev) }) ∧
        (eJamOn s.dev.axes.d.entry = true → n < eJam s.dev.axes.d.entry * 16 →
          Machine.exec .dcJamCheck s = .next { s with dev := (Dev.finish (Dev.raise { s.dev with mot := { s.dev.mot with auxTs := s.dev.clk.now } }
            { code := cAxisJam, sub := 3, sev := some .pause, lvl := .device, job := s.dev.bandJob
              detail := s.dev.motionDetail 3 0xFF ((n : Int) - (eJam s.dev.axes.d.entry * 16 : Nat))
                (eJam s.dev.axes.d.entry * 16) s.dev.nextLineTick })) })))
  ∧ (∀ (s : State) (len : BitVec 32), s.dev.operating = true →
      (∀ (x : Fin 4) (b : Bool) (w : Winding), (s.dev.axes.get x).energised = true → (s.dev.axes.get x).held = false →
        w = (s.dev.axes.get x).wind b →
        (((b = true ∧ s.dev.pers.axisCfg.get x = 2) ∨ (x = 3 ∧ s.dev.mot.auxBrake = true) ∨ (w.on = false ∧ len.toNat < w.off) ∨
            (w.on = true ∧ len.toNat < 50 * (bits (eDrive (s.dev.axes.get x).entry) 1 0 + 1))) →
          Machine.exec (.chopperPhaseEnd (.winding x b) len) s = .next { s with dev := (Dev.finish s.dev) }) ∧
        ((b = true → s.dev.pers.axisCfg.get x ≠ 2) → (x = 3 → s.dev.mot.auxBrake = false) →
          (∀ e : Dev, w.on = false → w.off ≤ len.toNat → e = s.dev.windShare x b len.toNat →
            Machine.exec (.chopperPhaseEnd (.winding x b) len) s = .next { s with dev := (Dev.finish (e.onAxis x fun a => a.setWind b { a.wind b with
              on := decide (a.code s.dev.motorVfs (s.dev.pers.axisCfg.get x == 2) b ≠ 0)
              dir := decide (0 ≤ a.target (s.dev.pers.axisCfg.get x == 2) b), off := 0, fast := 0, phaseTs := s.dev.clk.now })) }) ∧
          (∀ (n off : Nat) (e f : Dev), w.on = true → 50 * (bits (eDrive (s.dev.axes.get x).entry) 1 0 + 1) ≤ len.toNat →
            e = ((s.dev.windShare x b (min len.toNat 20000)).stepShare x b (min len.toNat 20000)) →
            n = (if 20000 ≤ len.toNat ∧ 125 ≤ e.windCode x b ∧
              ((e.axes.get x).moving = false ∨ e.speedNow x * 4 < e.topSpeed x) then ((e.axes.get x).wind b).limits + 1 else 0) →
            off = e.offTime e.motorToff (lfsrNext (e.axes.get x).lfsr) →
            f = (e.onAxis x fun a => { a.setWind b { a.wind b with
                  on := false
                  dir := if a.target (e.pers.axisCfg.get x == 2) b = 0 then (a.wind b).dir else decide (0 ≤ a.target (e.pers.axisCfg.get x == 2) b)
                  off := off, fast := [0, off / 8, off / 4, off / 2].getD (bits (eDrive (e.axes.get x).entry) 3 2) 0
                  phaseTs := e.clk.now, limits := if 16 ≤ n then 0 else n } with lfsr := lfsrNext (e.axes.get x).lfsr }) →
            (n < 16 → Machine.exec (.chopperPhaseEnd (.winding x b) len) s = .next { s with dev := (Dev.finish f) }) ∧
            (16 ≤ n → Machine.exec (.chopperPhaseEnd (.winding x b) len) s = .next { s with dev := (Dev.finish (f.raise
              { code := cWindingOpen, sub := x.val, sev := some .stopDevice, lvl := .device, job := f.bandJob
                detail := f.motionDetail x.val (b2n b) (e.windCode x b) 125 f.nextLineTick })) })))) ∧
      (∀ (c : Fin 8) (r : SolRun), s.dev.runOn c = some r → r.ch = c → (s.dev.sol.get c).pulsing = true →
        (len.toNat < (if (s.dev.sol.get c).gate then 100 else (s.dev.sol.get c).off) →
          Machine.exec (.chopperPhaseEnd (.coil c) len) s = .next { s with dev := (Dev.finish s.dev) }) ∧
        ((s.dev.sol.get c).gate = true → 100 ≤ len.toNat →
          Machine.exec (.chopperPhaseEnd (.coil c) len) s = .next { s with dev := (Dev.finish ((s.dev.coilShare c r len.toNat).coilOff r len.toNat)) }) ∧
        ((s.dev.sol.get c).gate = false → (s.dev.sol.get c).off ≤ len.toNat →
          Machine.exec (.chopperPhaseEnd (.coil c) len) s = .next { s with dev :=
            (Dev.finish ((s.dev.coilShare c r len.toNat).each8 r.chans fun k d => d.gate k true)) })))

/-- MEDIA_REST at the end of a deceleration with no tick outstanding: the group turns back to the target that it overran, or to
the boundary that its stop named, and otherwise comes to rest: band and mover learn of it, and with neither of them left to move
the sensor channels are compensated. -/
def Obligations.MediaRestAnswers : Prop :=
  ∀ s : State, s.dev.operating = true → s.dev.mot.travel ≠ .rest → s.dev.axes.a.segs = [] → s.dev.mot.per = 0 → s.dev.mot.tickDue = none →
    (∀ t : Int, s.dev.mot.travel = .stopping → s.dev.mot.superseded = some t →
      Machine.exec .mediaRest s = .next { s with dev := (Dev.finish
        ((Dev.setMark { s.dev with mot := { s.dev.mot with overshoot := (s.dev.axOf s.dev.mot.bound - s.dev.axOf t).natAbs } }).startReturn t)) }) ∧
    (∀ t : Int, s.dev.mot.travel = .stopping → s.dev.mot.superseded = none → s.dev.mot.returnTo = some t →
      (t ≠ s.dev.mot.bound → Machine.exec .mediaRest s = .next { s with dev := (Dev.finish (s.dev.setMark.startReturn t)) }) ∧
      (t = s.dev.mot.bound → Machine.exec .mediaRest s = .next { s with dev :=
        (Dev.finish s.dev.restGroup.bandRests.moverRests.closeQuiet) })) ∧
    (∀ e : Dev, (s.dev.mot.travel ≠ .stopping ∨ (s.dev.mot.superseded = none ∧ s.dev.mot.returnTo = none)) →
      e = s.dev.restGroup.bandRests.moverRests.closeQuiet →
      ((e.mover = none ∧ (∀ b, e.line.band = some b → b.lines ≤ b.next)) →
        Machine.exec .mediaRest s = .next { s with dev := (Dev.finish e.compensateAll) }) ∧
      ((e.mover ≠ none ∨ (∃ b, e.line.band = some b ∧ b.next < b.lines)) →
        Machine.exec .mediaRest s = .next { s with dev := (Dev.finish e) }))

/-- YANK_CHECK, each millisecond, keeps the last five counts and commanded positions; with five, a difference of at least the
section's limit between the travel by the encoder and the travel commanded is a yank. After a gap of more than 2 ms it begins
anew (model choice, log entry 139). SENSOR_ROUND, at a multiple of 250 units of the timestamp, takes the conversions, each with
the position of its own time, unless the round would overlap a tick or start sample sequence, and sends them on; at any other
time it does nothing. LEARN_RANGE_END ends the range of a learning record once, at its distance, and touches the learning of no
channel but those that the record learns. PAPER_OUT_CLEAR ends the condition when every paper-out channel has read media for 500
ms with the cover closed. COVER_OPEN with a level that has lasted for the glitch filter of cover_input and is the active one by
its polarity bit kills every strobe, shadows the ports and is a PAUSE, in Doze it only kills; a shorter or an inactive level
raises nothing. COVER_CLEAR with the inactive level ends it. CUTTER_JAM of a cutter away from home too long holds AX3 off and is
a STOP_DEVICE. -/
def Obligations.MediaEventsAnswer : Prop :=
  (∀ s : State,
      (∀ e : Dev, s.dev.awake = true → s.dev.pairSecondary = false → mCpl s.dev.curMedia ≠ 0 → mYank s.dev.curMedia ≠ 0 →
        s.dev.past s.dev.mot.yankTs (2 * ms) = false →
        e = { s.dev with mot := { s.dev.mot with
          encHist := (s.dev.mot.menc :: s.dev.mot.encHist).take 5, cmdHist := (s.dev.axes.a.pos :: s.dev.mot.cmdHist).take 5
          yankTs := s.dev.clk.now } } →
        ((s.dev.mot.encHist.length < 4 ∨ s.dev.mot.cmdHist.length < 4) →
          Machine.exec .yankCheck s = .next { s with dev := (Dev.finish e) }) ∧
        (∀ (m c moved meant : Int), s.dev.mot.encHist[3]? = some m → s.dev.mot.cmdHist[3]? = some c →
          moved = ((s.dev.mot.menc - m) * 4194304).tdiv (mCpl s.dev.curMedia : Int) →
          meant = ((s.dev.axes.a.pos - c) * 4194304).tdiv (max s.dev.mot.l0 1 : Nat) →
          Machine.exec .yankCheck s = .next { s with dev :=
            (Dev.finish (if (mYank s.dev.curMedia : Int) ≤ (moved - meant).natAbs then e.yanked (moved - meant) else e)) })) ∧
      (∀ (set : Oct Adc) (e : Dev) (codes : List Nat), s.dev.awake = true → s.dev.pairSecondary = false → s.dev.clk.now.toNat % 250 = 0 →
        e = (if s.dev.roundOverlaps then s.dev else s.dev.senseRound (s.dev.roundAt s.dev.clk.now) set) →
        codes = (if s.dev.roundOverlaps then List.replicate 8 0 else set.toList.map (·.toNat)) →
        Machine.exec (.sensorRound set) s = .next { s with dev := (Dev.finish (e.sendTick 2 0 e.clk.now 0 0
          (pack12 codes ++ pack12 (e.solx.adcb.map (·.toNat) ++ List.replicate (9 - e.solx.adcb.length) 0) ++
            sBytes 4 e.mot.menc ++ sBytes 4 e.mot.aenc))) }) ∧
      (∀ set : Oct Adc, s.dev.clk.now.toNat % 250 ≠ 0 → Machine.exec (.sensorRound set) s = .next { s with dev := (Dev.finish s.dev) }) ∧
      (∀ (m : Move) (a : Adm), s.dev.learning = some (m, a) → s.dev.operating = true → m.ranged = false →
        rDist a.raw ≤ 4 * (s.dev.samplePos (tens s.dev.clk.now) - m.startPos) → ∃ e : Dev,
          Machine.exec .learnRangeEnd s = .next { s with dev := (Dev.finish e) } ∧
          e.media.move = some { m with ranged := true } ∧
          (∀ c : Fin 8, bit (lMask a.raw) c.val = false →
            e.media.learn.get c = s.dev.media.learn.get c ∧ e.sense.get c = s.dev.sense.get c) ∧
          (∀ c : Fin 8, bit (lMask a.raw) c.val = true → (e.media.learn.get c).eOld = (s.dev.media.learn.get c).eOld ∧
            ((s.dev.media.learn.get c).eOld = 0 → (e.media.learn.get c).eNew = 0) ∧
            (2400 ≤ (s.dev.media.learn.get c).hi → (s.dev.media.learn.get c).hi ≤ 3600 →
              (e.media.learn.get c).eNew = (s.dev.media.learn.get c).eOld) ∧
            ((s.dev.media.learn.get c).eOld ≠ 0 → (s.dev.media.learn.get c).hi ≠ 0 →
              ((s.dev.media.learn.get c).hi < 2400 ∨ 3600 < (s.dev.media.learn.get c).hi) → (e.media.learn.get c).eNew =
                min 160 (max 1 (roundDiv ((s.dev.media.learn.get c).eOld * 3000) (s.dev.media.learn.get c).hi)))) ∧
          { e with media := s.dev.media, sense := s.dev.sense, sys := { e.sys with frees := s.dev.sys.frees } } = s.dev))
  ∧ (∀ s : State,
      (s.dev.operating = true → s.dev.media.paperOut = true → s.dev.media.cover = false →
        (∀ c : Fin 8, mRole s.dev.curMedia c.val = 4 → ∃ t, (s.dev.sense.get c).mediaTs = some t ∧ s.dev.past t (500 * ms) = true) →
        Machine.exec .paperOutClear s = .next { s with dev :=
          (Dev.finish (Dev.endCond { s.dev with media := { s.dev.media with paperOut := false } } cPaperOut 0)) }) ∧
      (∀ (high : Bool) (ns : BitVec 16) (e k : Dev), s.dev.alive = true →
        (ns.toNat < filterNs (mCover s.dev.curMedia) → Machine.exec (.coverOpen high ns) s = .next { s with dev := (Dev.finish s.dev) }) ∧
        (filterNs (mCover s.dev.curMedia) ≤ ns.toNat → high = bit (mCover s.dev.curMedia) 0 →
          Machine.exec (.coverOpen high ns) s = .next { s with dev := (Dev.finish { s.dev with media := { s.dev.media with coverPin := high } }) }) ∧
        (filterNs (mCover s.dev.curMedia) ≤ ns.toNat → high = !(bit (mCover s.dev.curMedia) 0) →
          e = { s.dev with media := { s.dev.media with coverPin := high, cover := true } } →
          (s.dev.awake = false → Machine.exec (.coverOpen high ns) s = .next { s with dev :=
            (Dev.finish (e.kill (fin4.filter e.portOn) cCoverOpen 0)) }) ∧
          (s.dev.awake = true → k = (e.kill (fin4.filter e.portOn) cCoverOpen 0).shadowPorts (fin4.filter e.portOn) →
            Machine.exec (.coverOpen high ns) s = .next { s with dev := (Dev.finish (k.raise
              { code := cCoverOpen, sev := some .pause, lvl := .device, job := k.bandJob
                detail := k.senseDetail 0xFF 0 0 (if e.cuts (fin4.filter e.portOn) then e.firingTick else e.nextLineTick) 0 })) }))) ∧
      (∀ high : Bool, s.dev.alive = true → s.dev.media.cover = true → high = bit (mCover s.dev.curMedia) 0 →
        Machine.exec (.coverClear high) s = .next { s with dev :=
          (Dev.finish ((Dev.unkill { s.dev with media := { s.dev.media with coverPin := high, cover := false } } fin4 cCoverOpen).endCond cCoverOpen 0)) }) ∧
      (∀ c : CutRt, s.dev.operating = true → s.dev.media.cut = some c → s.dev.cutLate c = true → ∃ (r : Rise) (e : Dev),
        r.code = cCutterJam ∧ r.sev = some .stopDevice ∧ r.lvl = .device ∧ e.axes.d.held = true ∧ e.axes.d.segs = [] ∧
        Machine.exec .cutterJam s = .next { s with dev := (Dev.finish ((e.raise r).afterCut s.dev)) }))

/-- A sensor channel changes state at the sample that completes its run of n, and before that only counts (R377, R378). -/
def Obligations.SensorChangesAfterItsRun : Prop :=
  ∀ (t : Track) (sg th h : Int) (n : Nat) (p : Int) (r : Nat), 0 < n → t.run < n →
    ((t.next sg th h n p r).2 = true ↔ (t.run + 1 = n ∧ h ≤ (if t.space then -sg else sg) * ((r : Int) - th))) ∧
    ((t.next sg th h n p r).1.space = (if (t.next sg th h n p r).2 then !t.space else t.space)) ∧
    (t.next sg th h n p r).1.run < n ∧
    (¬ h ≤ (if t.space then -sg else sg) * ((r : Int) - th) → (t.next sg th h n p r).1.run = 0)

/-! ## Solenoids -/

/-- PULSE_START begins the next pulse of a run whose conditions hold, not after the deadline of the first. SOLENOID_DEADLINE
refuses a record whose first pulse has not begun and cannot begin at its deadline, under the code that held it. PEAK_END, 1.0 ms
after a seating that a sample has shown or at peak_time_max, ends the peak phase; HOLD_END ends the hold phase; CHANNEL_OFF, 100
µs after the release and 100 µs after the last sample above its limit, counts the pulse: the record completes after its last,
ends with its stop, or waits for the next. -/
def Obligations.PulsesAnswer : Prop :=
  (∀ (s : State) (seq : W32) (r : SolRun), s.dev.run seq = some r →
      (s.dev.awake = true → s.dev.mayPulse r = true → s.dev.media.cut = none →
        (r.begun = true ∨ r.deadline = none ∨ ∃ t, r.deadline = some t ∧ (s.dev.clk.now = t ∨ atOrAfter s.dev.clk.now t = false)) →
        Machine.exec (.pulseStart seq) s = .next { s with dev :=
          (Dev.finish ((s.dev.startPulse r).onRun seq fun r => { r with void := false })) }) ∧
      (∀ t : Ts, s.dev.operating = true → r.begun = false → r.deadline = some t → atOrAfter s.dev.clk.now t = true →
        (s.dev.clk.now ≠ t ∨ s.dev.mayPulse r = false) →
        Machine.exec (.solenoidDeadline seq) s = .next { s with dev :=
          (Dev.finish (Dev.refuse { s.dev with solx := { s.dev.solx with runs := s.dev.solx.runs.filter fun x => x.seq ≠ seq } } seq
            (if r.waitCode = 0 then cDeadlinePassed else r.waitCode) r.waitRef)) }))
  ∧ (∀ (s : State) (c : Fin 8) (r : SolRun), s.dev.runOn c = some r → s.dev.operating = true →
      (∀ e : Dev, (s.dev.sol.get r.ch).phase = .peak →
        (s.dev.past (s.dev.sol.get r.ch).phaseTs (r.peakMax * hundred) = true ∨
          ∃ t, (s.dev.sol.get r.ch).seated = some t ∧ s.dev.past t (1 * ms) = true ∧
            atOrAfter s.dev.clk.now (s.dev.sol.get r.ch).seatSeen = true) →
        e = s.dev.endPeak r →
        Machine.exec (.peakEnd c) s = .next { s with dev :=
          (Dev.finish (if (e.sol.get r.ch).phase = .released then (e.cutReleased r.seq).afterCut e else e)) }) ∧
      ((s.dev.sol.get r.ch).phase = .hold → s.dev.past (s.dev.sol.get r.ch).phaseTs (r.holdTime * hundred) = true →
        Machine.exec (.holdEnd c) s = .next { s with dev :=
          (Dev.finish (((s.dev.releaseRun r.ch).cutReleased r.seq).afterCut (s.dev.releaseRun r.ch))) }) ∧
      (∀ (e : Dev) (u : SolRun), s.dev.media.cut = none →
        (∀ k ∈ r.chans, (s.dev.sol.get k).phase = .released ∧ s.dev.past (s.dev.sol.get k).relTs (100 * us) = true ∧
          ∀ t, (s.dev.sol.get k).belowTs = some t → s.dev.past t (100 * us) = true) →
        u = { r with done := r.done + (if r.void then 0 else 1), index := r.index + 1, void := false } →
        e = (s.dev.onRun r.seq fun x => { x with done := u.done, index := x.index + 1, void := false }) →
        (∀ x, r.stop = some x → Machine.exec (.channelOff c) s = .next { s with dev :=
          (Dev.finish (e.endRun u { res := .abandoned, lvl := x.2.2, origin := e.originOf x.2.2, code := x.1, ref := x.2.1 })) }) ∧
        (r.stop = none → r.count ≤ u.index → Machine.exec (.channelOff c) s = .next { s with dev :=
          (Dev.finish (e.endRun u { code := e.trimReason r.seq })) }) ∧
        (r.stop = none → u.index < r.count → Machine.exec (.channelOff c) s = .next { s with dev :=
          (Dev.finish (e.each8 r.chans fun c d => d.onSol c fun s => { s with phase := .idle })) })))

/-- R416: a released channel's gate goes low, and only a channel that is not idle takes the released phase; no other channel
changes. R415, R438: after the stage is brought to its phases a pair's high side is on exactly while one of its channels is in a
peak or hold phase and the pair is not fenced. -/
def Obligations.StageFollowsThePhases : Prop :=
  (∀ (d : Dev) (c : Fin 8),
      ((d.release1 c).sol.get c).gate = false ∧
      ((d.sol.get c).phase ≠ .idle → ((d.release1 c).sol.get c).phase = .released ∧ ((d.release1 c).sol.get c).relTs = d.clk.now) ∧
      ((d.sol.get c).phase = .idle → ((d.release1 c).sol.get c).phase = .idle) ∧
      (∀ k, k ≠ c → (d.release1 c).sol.get k = d.sol.get k) ∧ { d.release1 c with sol := d.sol } = d)
  ∧ (∀ (d : Dev) (k : Fin 4),
      (d.stageLevels.solx.hs.get k = true ↔
        ((∃ c : Fin 8, pairOf c = k ∧ ((d.sol.get c).phase = .peak ∨ (d.sol.get c).phase = .hold)) ∧ d.solx.fenced.get k = false)) ∧
      (d.stageLevels.solx.boost = true → d.solx.overvolt = false ∧ ∃ c : Fin 8, (d.sol.get c).phase = .peak) ∧
      { d.stageLevels with solx := d.solx } = d)

/-- ADCB_SAMPLE at a device that converts for itself takes a round of its conversions. ON_SHARE_WINDOW at the end of a 200 µs
window of the regulated peak of a channel not yet seated counts the window and compares its on share, the part of it that the
gate was high in 1/128, from the second on with three quarters of the greatest: two low ones in a row are the seating, at the
start of the first. COIL_MODEL_UPDATE advances the model of every channel. COIL_OPEN at a peak in which no sample has reached an
eighth of its level: the pulse is cut short, the channel released and its mate shadowed, and the fault is a DERATE.
COIL_SHORT_SUPPLY, but in the 200 ns after its gate has risen, and a reading of COIL_IDLE_TEST at or above a sixteenth of the
cap are shorts of their pair. COIL_IDLE_TEST acts at a multiple of 2,500,000 units alone, on the channels of no record whose
high side has been off for 1 ms, each for 20 µs; BOOST_OVERVOLT dumps the store, lowers every gate and is a STOP_DEVICE. -/
def Obligations.CoilsAnswer : Prop :=
  (∀ s : State,
      (∀ (sc : Oct Adc) (vb : Adc), s.dev.awake = true → s.dev.pairSecondary = false →
        Machine.exec (.adcbSample sc vb) s = .next { s with dev := (Dev.finish (s.dev.adcbRound sc.toList vb)) }) ∧
      (∀ (c : Fin 8) (x : Sol) (on share top : Nat), s.dev.awake = true → x = s.dev.sol.get c → x.phase = .peak →
        x.regulating = true → x.seated = none → s.dev.past (x.regTs + BitVec.ofNat 48 (x.windows * (200 * us))) (200 * us) = true →
        on = x.winOn + (if x.gate then min (min 20000 (4 * since s.dev.clk.now x.gateTs))
          (4 * since s.dev.clk.now (x.regTs + BitVec.ofNat 48 (x.windows * (200 * us)))) else 0) →
        share = min 128 (on * 128 / 20000) → top = max x.sMax share →
        (x.windows = 0 → Machine.exec (.onShareWindow c) s = .next { s with dev :=
          (Dev.finish (s.dev.onSol c fun y => { y with winOn := 0, windows := 1 })) }) ∧
        (1 ≤ x.windows → 3 * top / 4 < share → Machine.exec (.onShareWindow c) s = .next { s with dev :=
          (Dev.finish (s.dev.onSol c fun y => { y with winOn := 0, windows := x.windows + 1, sMax := top, lowTs := none })) }) ∧
        (1 ≤ x.windows → share ≤ 3 * top / 4 → x.lowTs = none → Machine.exec (.onShareWindow c) s = .next { s with dev :=
          (Dev.finish (s.dev.onSol c fun y => { y with
            winOn := 0, windows := x.windows + 1, sMax := top, lowTs := some (x.regTs + BitVec.ofNat 48 (x.windows * (200 * us))) })) }) ∧
        (∀ t, 1 ≤ x.windows → share ≤ 3 * top / 4 → x.lowTs = some t →
          Machine.exec (.onShareWindow c) s = .next { s with dev :=
            (Dev.finish (s.dev.onSol c fun y => { y with
              winOn := 0, windows := x.windows + 1, sMax := top, seated := some t, seatSeen := s.dev.clk.now })) })) ∧
      (s.dev.operating = true → (∀ c : Fin 8, (s.dev.sol.get c).owner = none ∧ (s.dev.sol.get c).hotPosted = false) → ∃ e : Dev,
        Machine.exec .coilModelUpdate s = .next { s with dev := (Dev.finish e) } ∧
        (∀ (c : Fin 8) (x : Sol) (k : Nat), x = s.dev.sol.get c → k = min 511 (x.acc * 256 / (max x.accN 1 * max (10 * s.dev.solCap) 1)) →
          e.sol.get c = { x with
            acc := 0, accN := 0
            th := x.th + (((1920 * k * k * s.dev.coilIndex c / 2 ^ 24 * 65536 : Nat) : Int) - x.th) / 65536 }) ∧
        { e with sol := s.dev.sol } = s.dev))
  ∧ (∀ s : State,
      (∀ (c : Fin 8) (r : SolRun) (e : Dev), s.dev.runOn c = some r → s.dev.awake = true → (s.dev.sol.get r.ch).phase = .peak →
        (s.dev.sol.get r.ch).strong = false → s.dev.past (s.dev.sol.get r.ch).phaseTs (min (2 * ms) (r.peakMax * hundred)) = true →
        e = ((s.dev.cutPulse r cCoilOpen (s.dev.nextRef cCoilOpen r.ch.val)).releaseRun r.ch).shadowMate r.ch →
        Machine.exec (.coilOpen c) s = .next { s with dev := (Dev.finish (e.raise
          { code := cCoilOpen, sub := r.ch.val, sev := some .derate, lvl := .device, job := (e.adm r.seq).bind fun a => rJob a.raw
            detail := s.dev.solDetail r.ch.val (pairOf r.ch).val (s.dev.runSense r) (r.peak / 8) })) }) ∧
      (∀ (c : Fin 8) (reading : BitVec 16), s.dev.alive = true → s.dev.noSolenoids = false → s.dev.solx.fenced.get (pairOf c) = false →
        ((s.dev.sol.get c).gate = false ∨ s.dev.past (s.dev.sol.get c).gateTs 5 = true) →
        ((∀ r, s.dev.runOn c = some r → r.paired = false) →
          Machine.exec (.coilShortSupply c reading) s = .next { s with dev :=
            (Dev.finish (s.dev.shorted c cCoilShortSupply reading.toNat (15 * s.dev.solCap))) }) ∧
        (∀ r, s.dev.runOn c = some r → r.paired = true →
          Machine.exec (.coilShortSupply c reading) s = .next { s with dev :=
            (Dev.finish (s.dev.shorted c cCoilShortSupply reading.toNat (30 * s.dev.solCap / 4))) })) ∧
      (∀ rd : Oct Adc, s.dev.clk.now.toNat % 2500000 ≠ 0 → Machine.exec (.coilIdleTest rd) s = .next { s with dev := (Dev.finish s.dev) }) ∧
      (∀ rd : Oct Adc, s.dev.awake = true → s.dev.noSolenoids = false → s.dev.clk.now.toNat % 2500000 = 0 →
        (∀ c : Fin 8, (s.dev.sol.get c).owner ≠ none ∨ s.dev.solx.hs.get (pairOf c) = true ∨
          s.dev.past (s.dev.solx.hsTs.get (pairOf c)) (1 * ms) = false ∨ s.dev.solx.fenced.get (pairOf c) = true) →
        Machine.exec (.coilIdleTest rd) s = .next { s with dev := (Dev.finish s.dev) }) ∧
      (∀ (rd : Oct Adc) (e : Dev), s.dev.awake = true → s.dev.noSolenoids = false → s.dev.clk.now.toNat % 2500000 = 0 →
        (s.dev.sol.get 7).owner = none → s.dev.solx.hs.get 3 = false →
        s.dev.past (s.dev.solx.hsTs.get 3) (1 * ms) = true → s.dev.solx.fenced.get 3 = false →
        (∀ c : Fin 8, c ≠ 7 → (s.dev.sol.get c).owner ≠ none) →
        e = (s.dev.onSol 7 fun x => { x with testTo := some (s.dev.at_ (20 * us)) }) →
        (shuntOf (rd.get 7).toNat < s.dev.capSixteenth → Machine.exec (.coilIdleTest rd) s = .next { s with dev := (Dev.finish e) }) ∧
        (s.dev.capSixteenth ≤ shuntOf (rd.get 7).toNat → Machine.exec (.coilIdleTest rd) s = .next { s with dev :=
          (Dev.finish (e.shorted 7 cCoilShortSupply (shuntOf (rd.get 7).toNat) s.dev.capSixteenth)) })) ∧
      (∀ (code : Adc) (e : Dev), s.dev.alive = true → s.dev.noSolenoids = false →
        e = (s.dev.solx.runs.foldl (fun d r => d.cutPulse r cBoostOvervolt (s.dev.nextRef cBoostOvervolt 0)) s.dev) →
        Machine.exec (.boostOvervolt code) s = .next { s with dev := (Dev.finish
          (((Dev.gatesLow { e with solx := { e.solx with dump := true, overvolt := true } }).each8
              (fin8.filter fun c => (s.dev.sol.get c).pulsing) fun c d => d.shadowMate c).raise
            { code := cBoostOvervolt, sev := some .stopDevice, lvl := .device
              detail := s.dev.solDetail 0xFF 0xFF (vbstOf code.toNat) (s.dev.clampLevel * 11 / 10) })) }))

/-! ## The serial port -/

/-- The commands of frame mode. A low of at least 11 bit times opens a frame, a shorter one does nothing; the characters of a
frame are those that the receiver makes of the samples on the line; a whole frame with data, and a whole one without, are
judged. More than 16 bit times of idle, at the rate in force or the one that the sync character has set, within a frame of an
accepted identifier discard it with UART_TIMEOUT, and a frame whose sync character or pid has not come or fails, or of another
identifier, is only counted; a shorter idle does nothing. The commands of stream mode: whole units, with and without data, are
taken in order; more than 16 bit times of idle within a unit discard it with UART_TIMEOUT and the answer 0x80; a stray character
counts bad, one whose start bit is decided high is none; XOFF holds what the device sends and XON lets it go. UART_REPLY sends
the answer that waits longest, and a poll's clears the two counters. -/
def Obligations.SerialAnswers : Prop :=
  (∀ s : State, s.dev.framing = true →
      (∀ n : BitVec 32,
        (50000000 * 11 ≤ n.toNat * s.dev.uart.rate →
          Machine.exec (.uartBreak n) s = .next { s with dev := (Dev.finish { s.dev with uart := { s.dev.uart with opened := true } }) }) ∧
        (n.toNat * s.dev.uart.rate < 50000000 * 11 → Machine.exec (.uartBreak n) s = .next { s with dev := (Dev.finish s.dev) })) ∧
      (s.dev.uart.opened = true → ∀ (l : ULine) (f : UFrame), f = s.dev.received l →
        (∀ n : Nat, (frameOf f).len = some n → n ≠ 0 →
          ((frameOf f).badField = true ∨ (frameOf f).bytes.length = (frameOf f).whole) →
          Machine.exec (.uartWriteFrame l) s = .next { s with dev := (Dev.finish (s.dev.uartFrame f)) }) ∧
        ((frameOf f).len = some 0 → (frameOf f).bytes.length = (frameOf f).whole →
          Machine.exec (.uartPoll l) s = .next { s with dev := (Dev.finish (s.dev.uartFrame f)) }) ∧
        (∀ (n : BitVec 32) (rate : Nat) (e : Dev), s.dev.streaming = false → f.chars ≠ [] →
          rate = (if s.dev.rateFails f = false ∧ 2 ≤ f.chars.length then s.dev.takeRate f else s.dev).uart.rate →
          e = { s.dev with uart := { s.dev.uart with opened := false } } →
          (n.toNat * rate ≤ 50000000 * 16 → Machine.exec (.uartTimeout l n) s = .next { s with dev := (Dev.finish s.dev) }) ∧
          (50000000 * 16 < n.toNat * rate →
            ((((charBytes f).getD 0 0) ≠ 0x55 ∨ s.dev.rateFails f = true ∨ f.chars.length < 2) →
              Machine.exec (.uartTimeout l n) s = .next { s with dev := (Dev.finish e.frameBad) }) ∧
            ((charBytes f).getD 0 0 = 0x55 → s.dev.rateFails f = false → 2 ≤ f.chars.length → s.dev.sys.sleep = .awake →
              ((pidOk ((charBytes f).getD 1 0) = false ∨ s.dev.accepts ((charBytes f).getD 1 0) = false) →
                Machine.exec (.uartTimeout l n) s = .next { s with dev := (Dev.finish (e.takeRate f).frameBad) }) ∧
              (pidOk ((charBytes f).getD 1 0) = true → s.dev.accepts ((charBytes f).getD 1 0) = true →
                Machine.exec (.uartTimeout l n) s = .next { s with dev :=
                  (Dev.finish (((e.takeRate f).noisy f).discard f (frameOf f) cUartTimeout)) }))))))
  ∧ (∀ s : State,
      (s.dev.streaming = true →
        (∀ (l : ULine) (f : UFrame), f = s.dev.received l → (unitOf f).bytes.getD 0 0 = 0x55 →
          (∀ n : Nat, (unitOf f).len = some n → ((unitOf f).badField = true ∨ (unitOf f).bytes.length = (unitOf f).whole) →
            (n ≠ 0 → Machine.exec (.streamWriteUnit l) s = .next { s with dev := (Dev.finish (s.dev.uartUnit f)) }) ∧
            (n = 0 → Machine.exec (.streamPollUnit l) s = .next { s with dev := (Dev.finish (s.dev.uartUnit f)) })) ∧
          (∀ n : BitVec 32, 50000000 * 16 < n.toNat * s.dev.uart.rate → Machine.exec (.uartTimeout l n) s = .next { s with dev :=
            (Dev.finish (((s.dev.drainUnits.noisy f).discard f (unitOf f) cUartTimeout).unitReply [0x80] false)) })) ∧
        (∀ u : UBits, (voted (u.bits.getD 0 7) = true →
            Machine.exec (.streamStrayChar u) s = .next { s with dev := (Dev.finish s.dev) }) ∧
          (∀ c : UChar, rxChar s.dev.uartFormat u = some c → c.byte ≠ 0x55 → c.byte ≠ 0x11 → c.byte ≠ 0x13 →
            Machine.exec (.streamStrayChar u) s = .next { s with dev := (Dev.finish s.dev.drainUnits.frameBad) })) ∧
        Machine.exec .xon s = .next { s with dev :=
          (Dev.finish (Dev.drainUnits { s.dev with uart := { s.dev.uart with held := false } })) } ∧
        Machine.exec .xoff s = .next { s with dev :=
          (Dev.finish (Dev.drainUnits { s.dev with uart := { s.dev.uart with held := true } })) }) ∧
      (s.dev.hears = true → s.dev.uartMode ≠ 0 → s.dev.uart.held = false → s.dev.sys.sleep ≠ .dormant → s.dev.uart.rxUnits = [] →
        s.dev.uart.xoffSent = false → ∀ (b : List Byte) (poll : Bool) (rest : List (List Byte × Bool)), s.dev.uart.replies = (b, poll) :: rest →
        Machine.exec .uartReply s = .next { s with dev := (Dev.finish { s.dev with uart := { s.dev.uart with
          replies := rest, sent := b
          framesBad := if poll then 0 else s.dev.uart.framesBad, noisy := if poll then 0 else s.dev.uart.noisy } }) }))

/-- How a frame of a fixed rate is judged while the device is awake: a wrong sync character or pid parity counts it bad; an
identifier that is not accepted leaves it uncounted when it is intact; an accepted one is discarded under the first of its
errors and else taken. -/
def Obligations.SerialFramesAreJudged : Prop :=
  ∀ (d e : Dev) (f : UFrame) (pid : Byte), d.uartMode ≠ 3 → d.sys.sleep = .awake → pid = (frameOf f).bytes.getD 1 0 →
    e = { d with uart := { d.uart with opened := false } } →
    (((frameOf f).bytes.getD 0 0 ≠ 0x55 ∨ pidOk pid = false) → d.uartFrame f = e.frameBad) ∧
    ((frameOf f).bytes.getD 0 0 = 0x55 → pidOk pid = true →
      (d.accepts pid = false → d.uartFrame f = if (lostFor f (frameOf f) false).isSome then e.frameBad else e) ∧
      (d.accepts pid = true → pid.toNat % 64 ≠ 0x3F →
        (∀ c, lostFor f (frameOf f) false = some c → d.uartFrame f = (e.noisy f).discard f (frameOf f) c) ∧
        (lostFor f (frameOf f) false = none → d.uartFrame f = (e.noisy f).takeFrame (frameOf f))))

/-- A protected identifier's two parity bits are those of R448, and every identifier's own is accepted. -/
def Obligations.ProtectedIdentifier : Prop :=
  ∀ id : Nat, id < 64 →
    (pidOf id).toNat % 64 = id ∧
    (pidOf id).getLsbD 6 = ((id.testBit 0 ^^ id.testBit 1) ^^ (id.testBit 2 ^^ id.testBit 4)) ∧
    (pidOf id).getLsbD 7 = !((id.testBit 1 ^^ id.testBit 3) ^^ (id.testBit 4 ^^ id.testBit 5)) ∧
    pidOk (pidOf id) = true

/-! ## The cellar -/

/-- CORK_PULSE, a low and then a high of CORK of 10 µs each or more, at an awake device outside the factory vintage: accepted
when no store and no measurement runs and none is held, else held, and when one is held already ignored with CORK_IGNORED. A
shorter low or high is no pulse. The steps of a store that is not suspended: 238 sectors erased, then 236 record sectors
programmed, then the header of copy 1 and of copy 0, a sector that fails at any step being replaced; at the end the new vintage
is the one in use and counted in the ledger, unless its bank does not verify. STORE_STARVED after 10 s of suspension, once;
STORE_RESUME when nothing suspends the store any longer, a starved one in Idle only. CELLAR_READ_DONE serves, of the reads that
can be served, the one whose record comes first in sequence. -/
def Obligations.StoreAnswers : Prop :=
  (∀ (s : State) (low high : BitVec 32),
      ((low.toNat < 250 ∨ high.toNat < 250) → Machine.exec (.corkPulse low high) s = .next { s with dev := (Dev.finish s.dev) }) ∧
      (250 ≤ low.toNat → 250 ≤ high.toNat → s.dev.sys.ready = true → s.dev.awake = true → s.dev.factoryOnly = false →
        (s.dev.cel.store = none → s.dev.measuring = false → s.dev.cel.pulseHeld = false →
          Machine.exec (.corkPulse low high) s = .next { s with dev := (Dev.finish s.dev.acceptPulse) }) ∧
        ((s.dev.cel.store ≠ none ∨ s.dev.measuring = true) → s.dev.cel.pulseHeld = false →
          Machine.exec (.corkPulse low high) s = .next { s with dev := (Dev.finish { s.dev with cel := { s.dev.cel with pulseHeld := true } }) }) ∧
        (s.dev.cel.pulseHeld = true →
          Machine.exec (.corkPulse low high) s = .next { s with dev := (Dev.finish (s.dev.raise
            { code := cCorkIgnored, sev := some .note, detail := cellarDetail s.dev.vintageNow 0 0xFF 0xFF 0xFFFF 0 0 0 })) })))
  ∧ (∀ (s : State) (st : Store), s.dev.operating = true → s.dev.cel.store = some st → st.suspended = none →
      (st.step = 1 →
        Machine.exec (.cellarEraseDone false) s = .next { s with dev :=
          (Dev.finish (s.dev.sectorFails st (s.dev.cel.sector st.bankB st.sector))) } ∧
        Machine.exec (.cellarEraseDone true) s = .next { s with dev :=
          (Dev.finish { s.dev with cel := { s.dev.cel.erase (s.dev.cel.sector st.bankB st.sector) with
            store := some (if st.sector < 237 then { st with sector := st.sector + 1 } else { st with step := 2, sector := 0 }) } }) }) ∧
      (∀ phys : Nat, st.step = 2 → phys = s.dev.cel.sector st.bankB (if st.sector < 118 then 1 + st.sector else 2 + st.sector) →
        Machine.exec (.cellarProgramDone false) s = .next { s with dev := (Dev.finish (s.dev.sectorFails st phys)) } ∧
        Machine.exec (.cellarProgramDone true) s = .next { s with dev :=
          (Dev.finish { s.dev with cel := { (s.dev.cel.erase phys).program phys
              (st.sectorBytes ((if st.sector < 118 then 1 + st.sector else 2 + st.sector) % 119)) with
            store := some (if st.sector < 235 then { st with sector := st.sector + 1 } else { st with step := 3, sector := 0 }) } }) }) ∧
      (∀ phys : Nat, st.step = 3 → phys = s.dev.cel.sector st.bankB (if st.sector = 0 then 119 else 0) →
        Machine.exec (.cellarProgramDone true) s = .next { s with dev :=
          (Dev.finish { s.dev with cel := { (s.dev.cel.erase phys).program phys (s.dev.storeHeader st (if st.sector = 0 then 1 else 0)) with
            store := some (if st.sector = 0 then { st with sector := 1 } else { st with step := 4, sector := 0 }) } }) }) ∧
      (st.step = 4 →
        (s.dev.cel.bankState st.bankB ≠ none →
          Machine.exec .storeComplete s = .next { s with dev := (Dev.finish (s.dev.storeFails st 4 0xFFFF)) }) ∧
        (∀ e : Dev, s.dev.cel.bankState st.bankB = none →
          e = (Dev.ledAdd { s.dev with cel := { s.dev.cel with store := none, inUse := true, bankB := st.bankB } } 12 4 1) →
          Machine.exec .storeComplete s = .next { s with dev := (Dev.finish (e.raise
            { code := cVintageStored, sev := none
              detail := cellarDetail st.vintage.toNat 0 (b2n st.bankB) 0xFF 0xFFFF 0 0 (since e.clk.now st.ts / ms) })) })))
  ∧ (∀ s : State, s.dev.operating = true →
      (∀ (st : Store) (t : Ts), s.dev.cel.store = some st → st.suspended = some t →
        (st.starved = false → s.dev.past t (10000 * ms) = true →
          Machine.exec .storeStarved s = .next { s with dev :=
            (Dev.finish (Dev.raise { s.dev with cel := { s.dev.cel with store := some { st with starved := true } } }
              { code := cStoreStarved, sev := some .note
                detail := cellarDetail st.vintage.toNat 0 (b2n st.bankB) 0xFF 0xFFFF 0 0 (since s.dev.clk.now t / ms) })) }) ∧
        (s.dev.readUnderWay = false → s.dev.onFallback = false →
          ((st.starved = true ∧ s.dev.powerState = 1) ∨ (st.starved = false ∧ s.dev.printing = false)) →
          Machine.exec .storeResume s = .next { s with dev :=
            (Dev.finish { s.dev with cel := { s.dev.cel with store := some { st with suspended := none } } }) })) ∧
      (∀ (q : W32) (i : Nat) (a : Adm), s.dev.pairSecondary = false → s.dev.pairPrimary = false →
        (q, i) ∈ s.dev.cel.reads → s.dev.readRecord i ≠ .wait → s.dev.adm q = some a →
        (∀ x ∈ s.dev.cel.reads, x ≠ (q, i) → s.dev.readRecord x.2 = .wait ∨ (laterSeq x.1 q = true ∧ laterSeq q x.1 = false)) →
        Machine.exec .cellarReadDone s = .next { s with dev := (Dev.finish (s.dev.served a i (s.dev.readRecord i))) }))

/-! ## The link -/

/-- The seven frames of the link, at a chip on an aligned ring: its own is removed and, when intact, delivered, so that it is
not sent again; any other is forwarded, marked broken when it is; one that is broken, seen before, or addressed to another chip
does nothing more, and one that is accepted acts as its type says. -/
def Obligations.LinkFramesAnswer : Prop :=
  ∀ (s : State) (f : LinkFrame) (c : Instr) (ty : Nat) (act : List Byte → Dev → Dev) (good mine seen : Bool) (e : Dev),
    (c, ty, act) ∈ [(Instr.tickFrame f, 0x20, Dev.tickIn), (.planFrame f, 0x21, Dev.planIn), (.eventFrame f, 0x30, Dev.eventIn),
      (.echoFrame f, 0x22, Dev.echoIn), (.writeFrame f, 0x40, Dev.writeIn), (.syncFrame f, 0x10, Dev.syncIn), (.cellarFrame f, 0x50, Dev.cellarIn)] →
    s.dev.onRing = true → s.dev.clk.clkinOk = true → s.dev.clk.linkRun = true → s.dev.persError = false → s.dev.link.aligned = true →
    le f.bytes 0 1 = ty →
    good = (f.intact && frameGood f.bytes) → mine = decide (le f.bytes 2 1 = s.dev.node ∨ le f.bytes 2 1 = 0xFF) →
    seen = s.dev.link.seen.contains (f.bytes.getD 1 0, f.bytes.getD 3 0) →
    e = { s.dev with link := { s.dev.link with
      forwarded := (if s.dev.link.fwdTs = s.dev.clk.now then s.dev.link.forwarded else []) ++ [(f.bytes, good)], fwdTs := s.dev.clk.now } } →
    (le f.bytes 1 1 = s.dev.node →
      (good = true → Machine.exec c s = .next { s with dev := (Dev.finish { s.dev with link := { s.dev.link with
        flights := s.dev.link.flights.filter fun x => x.bytes.getD 3 0 ≠ f.bytes.getD 3 0 } }) }) ∧
      (good = false → Machine.exec c s = .next { s with dev := (Dev.finish s.dev) })) ∧
    (le f.bytes 1 1 ≠ s.dev.node →
      ((good = false ∨ mine = false ∨ seen = true) → Machine.exec c s = .next { s with dev := (Dev.finish e) }) ∧
      (good = true → mine = true → seen = false →
        Machine.exec c s = .next { s with dev := (Dev.finish (act f.bytes { e with link :=
          { e.link.accept (f.bytes.getD 1 0) (f.bytes.getD 3 0) with
            lastFrameTs := if e.fromPartner f.bytes then e.clk.now else e.link.lastFrameTs } })) }))

/-- LINK_ALIGNED; SYNC_SEND without a mark; LINK_FRAME_RESEND of the oldest undelivered frame, t_ring + 0.40 µs after its last
sending and up to three times, with the attempt number in the frame; LINK_DOWN with alignment lost; LINK_UP after 10 ms, in WIDE
and TANDEM mode with every position ready, in LANES mode with the master's SYNC carried. What the ring can lack: a chip that did
not join; a position lost, position 0 after 3 planned line periods, outside a band after 1 ms, without a TICK frame of its own;
a skew of the tick lines, that of three consecutive ticks, of a pulse more than 1.0 µs from its planned time, or of one that did
not come, whose skew is a free value (log entry 3); a partner that does not come: each the fault of its chapter. -/
def Obligations.RingAnswers : Prop :=
  (∀ s : State, s.dev.clk.clkinOk = true → s.dev.clk.linkRun = true → s.dev.persError = false →
      (s.dev.onRing = true → s.dev.link.aligned = false →
        Machine.exec .linkAligned s = .next { s with dev :=
          (Dev.finish { s.dev with link := { s.dev.link with aligned := true, alignTs := s.dev.clk.now } }) }) ∧
      (s.dev.onRing = true → s.dev.mayMark = false →
        Machine.exec .syncSend s = .next { s with dev := (Dev.finish (s.dev.sendSync none).drainUnits) }) ∧
      (∀ (f g : Flight) (rest : List Flight), s.dev.onRing = true → s.dev.link.flights = f :: rest → f.tries < 3 → s.dev.frameLate f.bytes = false →
        s.dev.past f.ts (ceilDiv (s.dev.tRing + 40) 4) = true → f ∉ rest →
        g = { bytes := withAttempt f.bytes (f.tries + 1), tries := f.tries + 1, ts := s.dev.clk.now } → ∃ e : Dev,
        Machine.exec .linkFrameResend s = .next { s with dev := (Dev.finish e) } ∧
        e.link.flights = g :: rest ∧ e.link.resends = s.dev.link.resends + 1 ∧ g.bytes ∈ e.link.sent ∧
        { e with link := { e.link with flights := s.dev.link.flights, resends := s.dev.link.resends, sent := s.dev.link.sent
                                       sentTs := s.dev.link.sentTs } } = s.dev) ∧
      (∀ e : Dev, s.dev.onRing = true → s.dev.link.aligned = true → s.dev.alive = true → s.dev.mode ≠ 0 → s.dev.link.formed = false →
        e = { s.dev with link := { s.dev.link with
            aligned := false, alignTs := s.dev.clk.now, downHeld := true, nodes := s.dev.link.awaitNodes } } →
        Machine.exec (.linkDown true) s = .next { s with dev := (Dev.finish (e.raise
          { code := cLinkDown, sev := some .pause, lvl := e.linkLvl, job := e.bandJob
            detail := twinDetail 1 0xFF 0 e.nextLineTick 0 0 0 })) }) ∧
      (s.dev.alive = true → s.dev.link.aligned = true → s.dev.link.downHeld = true → s.dev.link.joined = true →
        s.dev.past s.dev.link.alignTs (10 * ms) = true → (2 ≤ s.dev.mode → ∀ n ∈ s.dev.link.nodes, n.2.state = 3) →
        (s.dev.mode = 1 → s.dev.pos ≠ 0 → ∃ n ∈ s.dev.link.nodes, n.1 / 2 = 0 ∧ n.2.state ≠ unheard) →
        Machine.exec .linkUp s = .next { s with dev :=
          (Dev.finish (Dev.endCond { s.dev with link := { s.dev.link with downHeld := false } } cLinkDown 0)) }))
  ∧ (∀ s : State,
      (∀ e : Dev, 2 ≤ s.dev.mode → s.dev.pos ≠ 0 → s.dev.pers.valid = true → s.dev.persError = false → s.dev.clk.clkinOk = true → s.dev.link.joined = true →
        e = { s.dev with link := { s.dev.link with joined := false } } →
        Machine.exec .notJoined s = .next { s with dev := (Dev.finish (e.raise
          { code := cLinkDown, sev := some .pause, lvl := e.linkLvl, detail := twinDetail 3 e.node 0 noTick 0 0 0 })) }) ∧
      (∀ (p : BitVec 2) (e : Dev), s.dev.alive = true → s.dev.mode ≠ 0 → s.dev.link.aligned = true → s.dev.link.downHeld = false →
        ((s.dev.pos = 0 ∧ p ≠ 0) ∨ (s.dev.pos ≠ 0 ∧ p = 0 ∧
          ((∃ b, s.dev.line.band = some b ∧ b.phase = .firing ∧ s.dev.past s.dev.link.tickHeard (3 * s.dev.line.period) = true) ∨
            (s.dev.line.band = none ∧ s.dev.past s.dev.link.tickHeard ms = true)))) →
        s.dev.link.lostPos.getLsbD p.toNat = false →
        e = { s.dev with link := { s.dev.link with lostPos := s.dev.link.lostPos ||| BitVec.ofNat 4 (2 ^ p.toNat) } } →
        Machine.exec (.positionLost p) s = .next { s with dev := (Dev.finish (e.raise
          { code := cPositionLost, sev := some .pause, lvl := e.linkLvl, job := e.bandJob
            detail := twinDetail 0 (2 * p.toNat) 0 e.nextLineTick 0 0 0 })) }) ∧
      (∀ (k : Int) (d e : Dev), s.dev.alive = true →
        ((3 ≤ s.dev.link.skewRun ∧ k = s.dev.link.skew ∧ d = s.dev) ∨ (s.dev.link.skewRun < 3 ∧ s.dev.link.stray = some k ∧ d = s.dev) ∨
          (s.dev.link.skewRun < 3 ∧ s.dev.link.stray = none ∧ s.dev.pulseMissing = true ∧ k = (s.dev.drawFree.1 : Int) ∧ d = s.dev.drawFree.2)) →
        e = { d with link := { d.link with skewRun := 0, stray := none } } →
        Machine.exec .tickSkew s = .next { s with dev := (Dev.finish (e.raise
          { code := cTickSkew, sev := some .pause, lvl := e.linkLvl, job := e.bandJob
            detail := twinDetail 0 e.node 0 e.nextLineTick 0 0 (k % 4294967296).toNat })) }) ∧
      (s.dev.link.skewRun < 3 → s.dev.link.stray = none → s.dev.pulseMissing = false →
        Machine.exec .tickSkew s = .next { s with dev := (Dev.finish s.dev) }) ∧
      (∀ e : Dev, s.dev.role = 1 → s.dev.pers.strapsDone = true → s.dev.clk.clkinOk = true → s.dev.sys.ready = false →
        s.dev.link.partner = none → s.dev.link.alone = false → s.dev.link.dissolved = false → s.dev.persError = false →
        e = { s.dev with link := { s.dev.link with alone := true, ownLow := true } } →
        Machine.exec .noPartner s = .next { s with dev := (Dev.finish (e.raise
          { code := cTwinMismatch, sev := some .derate, lvl := .device, detail := twinDetail 1 (2 * s.dev.pos + 1) 0 noTick 0 0 0 })) }))

/-- TWIN_WRITE_APPLY at a formed secondary takes one write out of its queue, applies it as one host write and then the primary's
changes behind it. TAKEOVER: after an announced release, or 12 µs of silence, the secondary first applies what its queue and the
primary's changes still hold and then drives; while the primary's frames go on the pair dissolves. -/
def Obligations.SecondaryAnswers : Prop :=
  ∀ s : State, s.dev.pairSecondary = true →
    (∀ w : QWrite, s.dev.operating = true → s.dev.nextWrite = some w →
      Machine.exec .twinWriteApply s = .next { s with dev :=
        (Dev.finish ((Dev.hostWrite { s.dev with link := { s.dev.link with queue := s.dev.link.queue.erase w } } (b2n w.fromLink) w.cells).applyChanges)) }) ∧
    (s.dev.alive = true →
      (s.dev.link.released = none → s.dev.past s.dev.link.lastFrameTs 300 = false →
        Machine.exec .takeover s = .next { s with dev := (Dev.finish (s.dev.dissolve 9 0 noTick 0)) }) ∧
      ((s.dev.link.released ≠ none ∨ s.dev.past s.dev.link.lastFrameTs 300 = true) → ∃ e : Dev,
        Machine.exec .takeover s = .next { s with dev := (Dev.finish e) } ∧
        e.link.formed = false ∧ e.link.ownLow = true ∧ e.link.takeover.isSome = true ∧ e.link.queue = [] ∧ e.link.changes = [] ∧
        e.port = s.dev.inheritWindow.port ∧ e.win.mem = s.dev.inheritWindow.win.mem))

/-! ## Faults, check words and the test port -/

/-- A fault that is recorded (R147, R157, R158): its record is open under the next status sequence. A DERATE drives nothing:
FAULT_N, the heads, the axes, the channels, the window and the line stand. A PAUSE of the device at which no band, move, cut or
travel is in progress takes FAULT_N low at that moment. TICK_STALLED is taken at a device at which no reaction waits for the
tick. -/
def Obligations.RecordedFaultsAreOpen : Prop :=
  ∀ (d : Dev) (r : Rise) (lvl : Lvl) (count : Nat) (esc : Bool), (r.code = cTickStalled → ∀ x ∈ d.flt.active, x.waits = false) →
    ((d.fault r .derate lvl count esc).rings.openFaults = d.rings.openFaults ++ [d.rings.statusSeq] ∧
      (d.fault r .derate lvl count esc).rings.statusSeq = nextStatusSeq d.rings.statusSeq ∧
      { d.fault r .derate lvl count esc with rings := d.rings, flt := d.flt, link := d.link, age := d.age } = d) ∧
    (r.code ≠ cMediaYank → lvl ≠ .port → d.line.band = none → d.media.move = none → d.media.cut = none → d.mot.travel = .rest →
      (d.fault r .pause lvl count esc).rings.openFaults = d.rings.openFaults ++ [d.rings.statusSeq] ∧
      (d.fault r .pause lvl count esc).sys.faultN = false ∧
      (d.sys.faultN = true → (d.fault r .pause lvl count esc).sys.faultNTs = d.clk.now) ∧
      { d.fault r .pause lvl count esc with rings := d.rings, flt := d.flt, link := d.link, age := d.age, sys := d.sys } = d)

/-- Two strings of bytes that differ in exactly one byte have different check words (the polynomial is the model's choice, log
entry 7). -/
def Obligations.CheckWordSeesOneByte : Prop :=
  ∀ (before after : List Byte) (x y : Byte), x ≠ y → crc32c (before ++ x :: after) ≠ crc32c (before ++ y :: after)

/-- VHIO_BANK_DETECTOR notes the bank's supply and nothing else. TEST_PORT_TCK_EDGE moves the controller on a rising edge, the
update registers and TDO on a falling one, and TRST_N low resets it; of the device it can only draw a free value. From any state
of the controller five rising edges with TMS high reach test-logic reset, and the falling edge after them selects BYPASS and
takes nothing over. -/
def Obligations.TestPortAnswers : Prop :=
  (∀ s : State,
      (∀ above : Bool, Machine.exec (.vhioBankDetector above) s = .next { s with dev :=
        (Dev.finish { s.dev with sys := { s.dev.sys with vhioOk := above } }) }) ∧
      (∀ (rising tms tdi : Bool) (cells : List Bool),
        Machine.exec (.testPortTckEdge rising tms tdi false cells) s = .next { s with tap := s.tap.cleared } ∧
        Machine.exec (.testPortTckEdge false tms tdi true cells) s = .next { s with tap := s.tap.fall } ∧
        (s.tap.state ≠ .captureIr →
          Machine.exec (.testPortTckEdge true tms tdi true cells) s = .next { s with tap := s.tap.rise tms tdi cells 0 }) ∧
        (s.tap.state = .captureIr →
          Machine.exec (.testPortTckEdge true tms tdi true cells) s = .next { s with
            dev := { s.dev with sys := { s.dev.sys with frees := s.dev.sys.frees + 1 } }
            tap := s.tap.rise tms tdi cells (BitVec.ofNat 2 (Config.freeNat s.dev.sys.frees)) })))
  ∧ (∀ (t : Tap) (tdi : Fin 5 → Bool) (cells : Fin 5 → List Bool) (u : Fin 5 → BitVec 2),
      ∀ r : Tap, r = (((((t.rise true (tdi 0) (cells 0) (u 0)).rise true (tdi 1) (cells 1) (u 1)).rise true (tdi 2) (cells 2) (u 2)).rise
          true (tdi 3) (cells 3) (u 3)).rise true (tdi 4) (cells 4) (u 4)) →
        r.state = .reset ∧ r.fall.ir = 0b1111 ∧ r.fall.takeover = none)

/-! ## Completion -/

/-- Each command from XSPI_READ on, those of the job ring apart, at a device at which the conditions that its chapter gives for
its own effect hold: it completes with that effect. The conditions are on the state and the operands alone; what a command does
where they do not hold, and in its other forms, is stated beside it above. -/
def Obligations.CommandsComplete : Prop :=
  ∀ (s : State) (d : Dev), d = s.dev →
    -- the window, the sections and the writers (03, 04)
    (∀ (ca : BitVec 48) (words : Nat), caRead ca = true → d.answering = .slice → d.caMine ca = true → caDecoded ca = true → d.link.driving = true →
      (∀ i, i < 2 * words → caByte ca i < 0x400000 ∧ inReserved (caByte ca i) = false) → ∃ e : Dev,
      Machine.exec (.xspiRead ca true words) s = .next { s with dev := (Dev.finish e) } ∧
      e.port.dq = some ((List.range (2 * words)).map fun i => d.winByte (caByte ca i)) ∧ e.port.readCount = d.port.readCount + 1 ∧
      { e with port := d.port } = d) ∧
    (d.operating = true →
      (∀ n : Fin 28, d.owns (secAddr n.val) = true → d.secOn n.val = false → d.sectionFault n.val = none → ∃ e : Dev,
        Machine.exec (.profileSectionHandover n) s = .next { s with dev := (Dev.finish e) } ∧ e.secOn n.val = true) ∧
      (∀ n : Fin 28, d.line.band = none → d.mover = none → d.secOn n.val = true → d.ram (secAddr n.val + 3) = 0x5A → d.secNamed n.val = false →
        d.followsTable n.val = false → Machine.exec (.sectionRelease n) s = .next { s with dev :=
          (Dev.finish (((d.setSec n.val false).poke (secAddr n.val + 3) [0]).handBack (secAddr n.val))) }) ∧
      (∀ (n : Nat) (rest : List Nat), d.win.handed = n :: rest → d.owns (poolBlock n) = true →
        Machine.exec .blockCheck s = .next { s with dev := (Dev.finish (Dev.checkBlock { d with win := { d.win with handed := rest } } n)) }) ∧
      (d.sys.ready = true → Machine.exec .statusWrite s = .next { s with dev := (Dev.finish d.writeStatus) }) ∧
      (d.sys.ready = true → d.win.gaugeSeq = 0 ∨ d.past d.win.gaugeTs (1 * ms) = true → ∃ e : Dev,
        Machine.exec .gaugeFrameWrite s = .next { s with dev := (Dev.finish e) } ∧ e.win.gaugeSeq = d.win.gaugeSeq + 1 ∧
        e.win.gaugeSel = !d.win.gaugeSel ∧ e.rings = d.rings)) ∧
    -- lines, the press and the heads (01, 06, 07, 08)
    (d.operating = true →
      (∀ (fine : Fin 10) (ts : Ts) (f e : Dev) (p : PendLine), d.link.mark = none → d.link.markAt = none → d.sys.ready = true → d.tickNow = some ts →
        f = Dev.notePulse { d with link := { d.link with edge := fine } } → e = Dev.tickReacts { f with mot := { f.mot with tickDue := none } } →
        e.lineDue = true → e.framesMissing = false → e.tickKill = none → e.linePending = some p → p.complete = true → e.line.shiftDone = true →
        e.fireLate = false → Machine.exec (.lineTick fine) s = .next { s with dev := (Dev.finish ((e.raiseTick ts).tickWork ts (some p))) }) ∧
      (∀ set : SampleSet, d.pairSecondary = false → d.line.sampled = true → Machine.exec (.sampleSetComplete set) s = .next { s with dev :=
        (Dev.finish ((d.tickSet set).sendSet 0 d.clk.tickTs set).sendPlan) }) ∧
      (∀ (set : SampleSet) (t : Ts), d.pairSecondary = false → d.line.startTs = some t → atOrAfter d.clk.now t = true →
        Machine.exec (.startSampleSetDone set) s = .next { s with dev := (Dev.finish ((d.startSet set t).sendSet 1 t set)) }) ∧
      (∀ p : PendLine, d.line.pend = some p → p.complete = false → ∃ e : Dev,
        Machine.exec (.pressLineComplete .agree) s = .next { s with dev := (Dev.finish e) } ∧ e.line.pend = some { p with complete := true } ∧
        { e with line := d.line } = d) ∧
      (∀ k : Fin 4, (d.line.slices.get k).fenced = false →
        Machine.exec (.sliceParityError k) s = .next { s with dev := (Dev.finish ((d.fence k 1 d.nextLineTick).losePend k)) }) ∧
      (∀ (rb : Quad (List Bool)) (b : BandRt) (p q : PendLine) (ports : List (Fin 4)), d.line.band = some b → b.phase = .firing → d.line.shiftDone = false →
        d.line.fire = none → d.line.pend = some p → p.complete = true → d.line.following = none → q = d.trimLine p b.plan →
        ports = (fin4.filter fun k => (p.outs.get k).isSome) → Machine.exec (.planeShiftStart rb) s = .next { s with dev :=
          (Dev.finish ((Dev.each4 (Dev.shiftStarts { d with line := { d.line with shiftDone := true, pend := some q } })
            (fin4.filter fun k => !ports.contains k) (fun k d => d.onHead k fun h => { h with shiftReg := none })).shiftIn rb ports q.planes 0)) }) ∧
      (∀ (rb : Quad (List Bool)) (f : FireLine), d.line.fire = some f → f.ended = false → f.phases = [] → f.slot < f.durs.length → ∃ (e : Dev) (g : FireLine),
        Machine.exec (.slotTransfer rb) s = .next { s with dev := (Dev.finish e) } ∧ e.line.fire = some g ∧ g.slot = f.slot + 1 ∧ g.phases ≠ []) ∧
      (∀ f : FireLine, d.line.fire = some f → f.ended = false → f.phase + 1 < f.phases.length → Machine.exec .phaseBoundary s = .next { s with dev :=
        (Dev.finish (Dev.strobePhase { d with line := { d.line with fire := some { f with phase := f.phase + 1 } } } (f.phases.getD (f.phase + 1) []))) }) ∧
      (∀ (p : Fin 4) (g : Fin 8), Machine.exec (.strobeGuard p g) s = .next { s with dev := (Dev.finish (((d.kill [p] cStrobeGuard p.val).raisePort cStrobeGuard p
        (headDetail (d.lineFor [p]).1 (d.lineFor [p]).2 g.val 0 0 0)).shadowPorts [p])) }) ∧
      (∀ (p : Fin 4) (c : Adc) (e : Dev), (d.heads.get p).hardTrip = true → d.mot.travel = .rest → e = (d.onHead p fun h => { h with rawTh := c }) →
        e.tempOf p c ≤ e.hardLimit p - 80 → Machine.exec (.hardLimitRecheck p c) s = .next { s with dev :=
          (Dev.finish (((e.onHead p fun h => { h with hardTrip := false }).unkill [p] cHeadOvertempHard).endCond cHeadOvertempHard p.val)) }) ∧
      (∀ (p : Fin 4) (c : Adc) (n : Nat) (e : Dev), (d.heads.get p).vhLow = some n → d.vhEvaluated = true → e = (d.onHead p fun h => { h with rawVh := c }) →
        e.vhMin p * 21 ≤ vhOf c.toNat * 20 → n + 1 < 20 →
        Machine.exec (.vhLowRecheck p c) s = .next { s with dev := (Dev.finish (e.onHead p fun h => { h with vhLow := some (n + 1) })) })) ∧
    (∀ (p : Fin 4) (g : Fin 8), d.persError = false → ∃ (r : Rise) (e : Dev), r.code = cStrobeStuck ∧ r.sev = some .stopDevice ∧ e.sys.hmeas = true ∧
      Machine.exec (.strobeStuck p g) s = .next { s with dev := (Dev.finish (e.raise r)) }) ∧
    (∀ p : Fin 4, d.alive = true → d.portOn p = true →
      ((d.heads.get p).hardTrip = false → Machine.exec (.headOvertempHard p) s = .next { s with dev :=
        (Dev.finish ((((d.kill [p] cHeadOvertempHard p.val).onHead p fun h => { h with hardTrip := true }).raisePort cHeadOvertempHard p
          (headDetail (d.lineFor [p]).1 (d.lineFor [p]).2 0 (d.tempOf p (d.heads.get p).rawTh) (d.hardLimit p) 0)).shadowPorts [p])) }) ∧
      (∀ c : Adc, (d.heads.get p).vhHighOn = false → Machine.exec (.vhHigh p c) s = .next { s with dev :=
        (Dev.finish ((((d.kill [p] cVhHigh p.val).onHead p fun h => { h with vhHighOn := true }).raisePort cVhHigh p
          (headDetail (d.lineFor [p]).1 (d.lineFor [p]).2 0 (vhOf c.toNat) 3690 0)).shadowPorts [p])) }) ∧
      (∀ (high : Bool) (ns : BitVec 16) (e : Dev), filterNs (d.openInput p) ≤ ns.toNat → d.openActive p high = true → d.awake = true →
        e = (d.onHead p fun h => { h with openPin := true }) → Machine.exec (.headOpen p high ns) s = .next { s with dev :=
          (Dev.finish (((e.kill [p] cHeadOpen p.val).raisePort cHeadOpen p (headDetail (e.lineFor [p]).1 (e.lineFor [p]).2 0 0 0 0)).shadowPorts [p])) }) ∧
      (∀ high : Bool, (d.heads.get p).openPin = true → d.openActive p high = false → Machine.exec (.headOpenClear p high) s = .next { s with dev :=
        (Dev.finish (((d.onHead p fun h => { h with openPin := false }).unkill [p] cHeadOpen).endCond cHeadOpen p.val)) })) ∧
    (∀ t : Taste, d.operating = true → d.taste = some t →
      (∀ (sums : Quad (BitVec 16)) (u : Taste), t.stage = 0 → t.yielding = false → d.past t.stageTs (2 * ms) = true →
        u = { t with open16 := sums.mapIdx fun _ v => v.toNat } → (∀ p ∈ d.tastePorts u, openOk (sums.get p) = true) →
        Machine.exec (.tasteSetupDone sums) s = .next { s with dev := (Dev.finish (d.tasteDot u)) }) ∧
      (∀ (sums : Quad (BitVec 16)) (x : Dev × Taste) (a : Adm), t.stage = 1 → t.dot % 64 ≠ 0 → d.past t.stageTs (400 * us) = true →
        x = (d.tastePorts t).foldl (fun (x : Dev × Taste) (p : Fin 4) => x.1.readDot x.2 p (sums.get p).toNat) (d, t) →
        x.1.adm x.2.seq = some a → x.2.dot + 1 < tFirst a.raw + tCount a.raw → x.2.yielding = false →
        Machine.exec (.tasteDotDone sums none) s = .next { s with dev := (Dev.finish (x.1.tasteDot { x.2 with dot := x.2.dot + 1 })) }) ∧
      (t.stage = 2 → t.ended = true → d.past t.stageTs (2 * ms) = true →
        Machine.exec .tasteReleaseDone s = .next { s with dev := (Dev.finish { d with taste := none }) })) ∧
    -- encoders, axes and media (08, 09, 10)
    (d.operating = true →
      (∀ b : BandRt, d.line.band = some b → b.phase = .resting → d.bandMayStart b = true →
        Machine.exec .bandResume s = .next { s with dev := (Dev.finish d.startBand) }) ∧
      (∀ up : Bool, d.pairSecondary = false →
        Machine.exec (.encoderCount up) s = .next { s with dev := (Dev.finish (d.counted (if up then d.mot.menc + 1 else d.mot.menc - 1))) } ∧
        Machine.exec (.aencCount up) s = .next { s with dev := (Dev.finish (d.auxCounted (if up then d.mot.aenc + 1 else d.mot.aenc - 1))) }) ∧
      (∀ b : BandRt, d.tickSource = 1 → d.mot.tickDue = none → d.line.band = some b → b.phase = .firing → d.bandMoves = true →
        atOrAfter d.clk.now (d.line.planned + BitVec.ofNat 48 (100 * ms)) = true → Machine.exec .tickStalled s = .next { s with dev :=
          (Dev.finish (d.raise { code := cTickStalled, sev := some .pause, lvl := .device, job := d.bandJob })) }) ∧
      (∀ (g : Seg) (rest : List Seg) (e : Dev), d.axes.a.readyTs = none → d.axes.a.segs = g :: rest → d.line.band = none →
        d.come (d.axes.a.segTs + BitVec.ofNat 50 (g.stepAt d.axes.a.lastU (d.axes.a.done + 1))) = true → e = (d.segStep 0 g).jamCheck →
        Machine.exec (.motorStep 0) s = .next { s with dev := (Dev.finish (if g.dpos ≤ e.axes.a.done then e.lineTravelled g else e)) }) ∧
      (d.mot.travel ≠ .rest → d.mot.travel ≠ .stopping → d.axes.a.segs = [] → d.mot.per = 0 → d.mot.tickDue = none → ∃ e : Dev,
        Machine.exec .mediaRest s = .next { s with dev := (Dev.finish e) } ∧
        (e = d.restGroup.bandRests.moverRests.closeQuiet ∨ e = d.restGroup.bandRests.moverRests.closeQuiet.compensateAll)) ∧
      (∀ (x : Fin 4) (a : Axis), a = d.axes.get x → a.energised = true → a.moving = false → a.segs = [] → eRelease a.entry ≠ 65535 →
        d.past a.restTs (eRelease a.entry * ms) = true → (x = 3 ∨ d.groupHeld = false) → Machine.exec (.axisRelease x) s = .next { s with dev :=
          (Dev.finish (d.onAxis x fun a => { a with energised := false, released := true, a := { a.a with on := false }, b := { a.b with on := false } })) }) ∧
      (∀ (x : Fin 4) (b : Bool) (len : BitVec 32) (e : Dev), (d.axes.get x).energised = true → (d.axes.get x).held = false → d.pers.axisCfg.get x ≠ 2 →
        d.mot.auxBrake = false → ((d.axes.get x).wind b).on = false → ((d.axes.get x).wind b).off ≤ len.toNat → e = d.windShare x b len.toNat →
        Machine.exec (.chopperPhaseEnd (.winding x b) len) s = .next { s with dev :=
          (Dev.finish (e.onAxis x fun a => a.onPhase d.motorVfs false b d.clk.now)) }) ∧
      (∀ (x : Fin 4) (b : Bool) (mv : BitVec 16), (d.axes.get x).held = false → d.justOn x b = false → ∃ (r : Rise) (e : Dev),
        r.code = cAxisOvercurrent ∧ r.sub = x.val ∧ r.sev = some .stopDevice ∧ (e.axes.get x).held = true ∧
        Machine.exec (.axisOvercurrent x b mv) s = .next { s with dev := (Dev.finish (e.raise r)) }) ∧
      (d.mot.auxBrake = true → d.past d.axes.d.restTs (20 * ms) = true → Machine.exec .dcBrakeEnd s = .next { s with dev :=
        (Dev.finish ((Dev.auxArrived { d with mot := { d.mot with auxBrake := false, auxTarget := none } }).afterCut d)) }) ∧
      (d.auxDc = true → d.mot.auxTarget ≠ none → d.mot.auxBrake = false → d.past d.mot.auxTs (50 * ms) = true → eJamOn d.axes.d.entry = true →
        d.mot.auxCounts = [] → eJam d.axes.d.entry ≠ 0 → ∃ r : Rise, r.code = cAxisJam ∧ r.sub = 3 ∧ r.sev = some .pause ∧
        Machine.exec .dcJamCheck s = .next { s with dev := (Dev.finish (Dev.raise { d with mot := { d.mot with auxTs := d.clk.now } } r)) }) ∧
      (d.media.paperOut = true → d.media.cover = false →
        (∀ c : Fin 8, mRole d.curMedia c.val = 4 → ∃ t, (d.sense.get c).mediaTs = some t ∧ d.past t (500 * ms) = true) →
        Machine.exec .paperOutClear s = .next { s with dev := (Dev.finish (Dev.endCond { d with media := { d.media with paperOut := false } } cPaperOut 0)) }) ∧
      (∀ (m : Move) (a : Adm), d.learning = some (m, a) → m.ranged = false → rDist a.raw ≤ 4 * (d.samplePos (tens d.clk.now) - m.startPos) → ∃ e : Dev,
        Machine.exec .learnRangeEnd s = .next { s with dev := (Dev.finish e) } ∧ e.media.move = some { m with ranged := true }) ∧
      (∀ c : CutRt, d.media.cut = some c → d.cutLate c = true → ∃ (r : Rise) (e : Dev), r.code = cCutterJam ∧ r.sev = some .stopDevice ∧
        e.axes.d.held = true ∧ Machine.exec .cutterJam s = .next { s with dev := (Dev.finish ((e.raise r).afterCut d)) })) ∧
    (d.awake = true → d.pairSecondary = false →
      (mCpl d.curMedia ≠ 0 → mYank d.curMedia ≠ 0 → d.past d.mot.yankTs (2 * ms) = false → d.mot.encHist = [] → ∃ e : Dev,
        Machine.exec .yankCheck s = .next { s with dev := (Dev.finish e) } ∧ e.mot.encHist = [d.mot.menc] ∧ e.mot.yankTs = d.clk.now ∧
        { e with mot := d.mot } = d) ∧
      (∀ (set : Oct Adc) (e : Dev), d.clk.now.toNat % 250 = 0 → d.roundOverlaps = false → e = d.senseRound (d.roundAt d.clk.now) set →
        Machine.exec (.sensorRound set) s = .next { s with dev := (Dev.finish (e.sendTick 2 0 e.clk.now 0 0
          (pack12 (set.toList.map (·.toNat)) ++ pack12 (e.solx.adcb.map (·.toNat) ++ List.replicate (9 - e.solx.adcb.length) 0) ++
            sBytes 4 e.mot.menc ++ sBytes 4 e.mot.aenc))) })) ∧
    (d.alive = true →
      (∀ (high : Bool) (ns : BitVec 16) (e : Dev), filterNs (mCover d.curMedia) ≤ ns.toNat → high = !(bit (mCover d.curMedia) 0) → d.awake = true →
        e = { d with media := { d.media with coverPin := high, cover := true } } → ∃ r : Rise, r.code = cCoverOpen ∧ r.sev = some .pause ∧ r.lvl = .device ∧
        Machine.exec (.coverOpen high ns) s = .next { s with dev :=
          (Dev.finish (((e.kill (fin4.filter e.portOn) cCoverOpen 0).shadowPorts (fin4.filter e.portOn)).raise r)) }) ∧
      (∀ high : Bool, d.media.cover = true → high = bit (mCover d.curMedia) 0 → Machine.exec (.coverClear high) s = .next { s with dev :=
        (Dev.finish ((Dev.unkill { d with media := { d.media with coverPin := high, cover := false } } fin4 cCoverOpen).endCond cCoverOpen 0)) })) ∧
    -- solenoids (11)
    (∀ (seq : W32) (r : SolRun), d.run seq = some r →
      (d.awake = true → d.mayPulse r = true → d.media.cut = none → r.begun = true → Machine.exec (.pulseStart seq) s = .next { s with dev :=
        (Dev.finish ((d.startPulse r).onRun seq fun r => { r with void := false })) }) ∧
      (∀ t : Ts, d.operating = true → r.begun = false → r.deadline = some t → atOrAfter d.clk.now t = true → d.clk.now ≠ t →
        Machine.exec (.solenoidDeadline seq) s = .next { s with dev :=
          (Dev.finish (Dev.refuse { d with solx := { d.solx with runs := d.solx.runs.filter fun x => x.seq ≠ seq } } seq
            (if r.waitCode = 0 then cDeadlinePassed else r.waitCode) r.waitRef)) })) ∧
    (∀ (c : Fin 8) (r : SolRun), d.operating = true → d.runOn c = some r →
      ((d.sol.get r.ch).phase = .peak → d.past (d.sol.get r.ch).phaseTs (r.peakMax * hundred) = true → r.hold ≠ 0 → ((d.endPeak r).sol.get r.ch).phase ≠ .released →
        Machine.exec (.peakEnd c) s = .next { s with dev := (Dev.finish (d.endPeak r)) }) ∧
      ((d.sol.get r.ch).phase = .hold → d.past (d.sol.get r.ch).phaseTs (r.holdTime * hundred) = true → Machine.exec (.holdEnd c) s = .next { s with dev :=
        (Dev.finish (((d.releaseRun r.ch).cutReleased r.seq).afterCut (d.releaseRun r.ch))) }) ∧
      (d.media.cut = none → (∀ k ∈ r.chans, (d.sol.get k).phase = .released ∧ d.past (d.sol.get k).relTs (100 * us) = true ∧ (d.sol.get k).belowTs = none) →
        r.stop = none → r.index + 1 < r.count → Machine.exec (.channelOff c) s = .next { s with dev :=
          (Dev.finish ((d.onRun r.seq fun x => { x with done := r.done + b2n (!r.void), index := x.index + 1, void := false }).each8 r.chans
            fun c d => d.onSol c fun s => { s with phase := .idle })) }) ∧
      (d.awake = true → r.ch = c → (d.sol.get r.ch).phase = .peak → (d.sol.get r.ch).strong = false →
        d.past (d.sol.get r.ch).phaseTs (min (2 * ms) (r.peakMax * hundred)) = true → ∃ (x : Rise) (e : Dev),
        x.code = cCoilOpen ∧ x.sub = r.ch.val ∧ x.sev = some .derate ∧ (e.sol.get r.ch).phase = .released ∧ (e.sol.get r.ch).gate = false ∧
        Machine.exec (.coilOpen c) s = .next { s with dev := (Dev.finish (e.raise x)) })) ∧
    (∀ (sc : Oct Adc) (vb : Adc), d.awake = true → d.pairSecondary = false →
      Machine.exec (.adcbSample sc vb) s = .next { s with dev := (Dev.finish (d.adcbRound sc.toList vb)) }) ∧
    (∀ (c : Fin 8) (x : Sol), d.awake = true → x = d.sol.get c → x.phase = .peak → x.regulating = true → x.seated = none → x.windows = 0 →
      d.past x.regTs (200 * us) = true →
      Machine.exec (.onShareWindow c) s = .next { s with dev := (Dev.finish (d.onSol c fun y => { y with winOn := 0, windows := 1 })) }) ∧
    (d.operating = true → (∀ c : Fin 8, (d.sol.get c).owner = none ∧ (d.sol.get c).hotPosted = false) → ∃ e : Dev,
      Machine.exec .coilModelUpdate s = .next { s with dev := (Dev.finish e) } ∧ (∀ c : Fin 8, (e.sol.get c).acc = 0 ∧ (e.sol.get c).accN = 0) ∧
      { e with sol := d.sol } = d) ∧
    (∀ (c : Fin 8) (reading : BitVec 16), d.alive = true → d.noSolenoids = false → d.solx.fenced.get (pairOf c) = false → (d.sol.get c).gate = false →
      d.runOn c = none → Machine.exec (.coilShortSupply c reading) s = .next { s with dev :=
        (Dev.finish (d.shorted c cCoilShortSupply reading.toNat (15 * d.solCap))) }) ∧
    (∀ rd : Oct Adc, d.awake = true → d.noSolenoids = false → d.clk.now.toNat % 2500000 = 0 → (d.sol.get 7).owner = none → d.solx.hs.get 3 = false →
      d.past (d.solx.hsTs.get 3) (1 * ms) = true → d.solx.fenced.get 3 = false → (∀ c : Fin 8, c ≠ 7 → (d.sol.get c).owner ≠ none) →
      shuntOf (rd.get 7).toNat < d.capSixteenth → Machine.exec (.coilIdleTest rd) s = .next { s with dev :=
        (Dev.finish (d.onSol 7 fun x => { x with testTo := some (d.at_ (20 * us)) })) }) ∧
    (∀ code : Adc, d.alive = true → d.noSolenoids = false → d.solx.runs = [] → (∀ c : Fin 8, (d.sol.get c).phase = .idle) → ∃ r : Rise,
      r.code = cBoostOvervolt ∧ r.sev = some .stopDevice ∧ Machine.exec (.boostOvervolt code) s = .next { s with dev :=
        (Dev.finish ((Dev.gatesLow { d with solx := { d.solx with dump := true, overvolt := true } }).raise r)) }) ∧
    -- the serial port (12)
    (d.framing = true →
      (∀ n : BitVec 32, 50000000 * 11 ≤ n.toNat * d.uart.rate → Machine.exec (.uartBreak n) s = .next { s with dev :=
        (Dev.finish { d with uart := { d.uart with opened := true } }) }) ∧
      (d.uart.opened = true → ∀ (l : ULine) (f : UFrame), f = d.received l →
        (∀ n : Nat, (frameOf f).len = some n → n ≠ 0 → (frameOf f).bytes.length = (frameOf f).whole →
          Machine.exec (.uartWriteFrame l) s = .next { s with dev := (Dev.finish (d.uartFrame f)) }) ∧
        ((frameOf f).len = some 0 → (frameOf f).bytes.length = (frameOf f).whole →
          Machine.exec (.uartPoll l) s = .next { s with dev := (Dev.finish (d.uartFrame f)) }) ∧
        (∀ n : BitVec 32, d.uartMode = 2 → d.sys.sleep = .awake → (charBytes f).getD 0 0 = 0x55 → 2 ≤ f.chars.length →
          pidOk ((charBytes f).getD 1 0) = true → d.accepts ((charBytes f).getD 1 0) = true → 50000000 * 16 < n.toNat * d.uart.rate →
          Machine.exec (.uartTimeout l n) s = .next { s with dev :=
            (Dev.finish ((Dev.noisy { d with uart := { d.uart with opened := false } } f).discard f (frameOf f) cUartTimeout)) }))) ∧
    (d.streaming = true →
      (∀ (l : ULine) (f : UFrame), f = d.received l → (unitOf f).bytes.getD 0 0 = 0x55 → (unitOf f).bytes.length = (unitOf f).whole →
        (∀ n : Nat, (unitOf f).len = some n → n ≠ 0 → Machine.exec (.streamWriteUnit l) s = .next { s with dev := (Dev.finish (d.uartUnit f)) }) ∧
        ((unitOf f).len = some 0 → Machine.exec (.streamPollUnit l) s = .next { s with dev := (Dev.finish (d.uartUnit f)) })) ∧
      (∀ (u : UBits) (c : UChar), rxChar d.uartFormat u = some c → c.byte ≠ 0x55 → c.byte ≠ 0x11 → c.byte ≠ 0x13 →
        Machine.exec (.streamStrayChar u) s = .next { s with dev := (Dev.finish d.drainUnits.frameBad) }) ∧
      Machine.exec .xon s = .next { s with dev := (Dev.finish (Dev.drainUnits { d with uart := { d.uart with held := false } })) } ∧
      Machine.exec .xoff s = .next { s with dev := (Dev.finish (Dev.drainUnits { d with uart := { d.uart with held := true } })) }) ∧
    (∀ (b : List Byte) (rest : List (List Byte × Bool)), d.hears = true → d.uartMode ≠ 0 → d.uart.held = false → d.sys.sleep ≠ .dormant →
      d.uart.rxUnits = [] → d.uart.xoffSent = false → d.uart.replies = (b, false) :: rest →
      Machine.exec .uartReply s = .next { s with dev := (Dev.finish { d with uart := { d.uart with replies := rest, sent := b } }) }) ∧
    -- the cellar (13)
    (∀ low high : BitVec 32, 250 ≤ low.toNat → 250 ≤ high.toNat → d.sys.ready = true → d.awake = true → d.factoryOnly = false → d.cel.store = none →
      d.measuring = false → d.cel.pulseHeld = false → Machine.exec (.corkPulse low high) s = .next { s with dev := (Dev.finish d.acceptPulse) }) ∧
    (∀ st : Store, d.operating = true → d.cel.store = some st → st.suspended = none →
      (st.step = 1 → st.sector < 237 → Machine.exec (.cellarEraseDone true) s = .next { s with dev := (Dev.finish { d with cel := {
        d.cel.erase (d.cel.sector st.bankB st.sector) with store := some { st with sector := st.sector + 1 } } }) }) ∧
      (∀ phys : Nat, st.step = 2 → st.sector < 118 → phys = d.cel.sector st.bankB (1 + st.sector) →
        Machine.exec (.cellarProgramDone true) s = .next { s with dev := (Dev.finish { d with cel := {
          (d.cel.erase phys).program phys (st.sectorBytes (1 + st.sector)) with store := some { st with sector := st.sector + 1 } } }) }) ∧
      (∀ e : Dev, st.step = 4 → d.cel.bankState st.bankB = none →
        e = (Dev.ledAdd { d with cel := { d.cel with store := none, inUse := true, bankB := st.bankB } } 12 4 1) → ∃ r : Rise,
        r.code = cVintageStored ∧ Machine.exec .storeComplete s = .next { s with dev := (Dev.finish (e.raise r)) })) ∧
    (∀ (st : Store) (t : Ts), d.operating = true → d.cel.store = some st → st.suspended = some t → st.starved = false →
      (d.past t (10000 * ms) = true → ∃ r : Rise, r.code = cStoreStarved ∧ Machine.exec .storeStarved s = .next { s with dev :=
        (Dev.finish (Dev.raise { d with cel := { d.cel with store := some { st with starved := true } } } r)) }) ∧
      (d.readUnderWay = false → d.onFallback = false → d.printing = false → Machine.exec .storeResume s = .next { s with dev :=
        (Dev.finish { d with cel := { d.cel with store := some { st with suspended := none } } }) })) ∧
    (∀ (q : W32) (i : Nat) (a : Adm), d.operating = true → d.role = 0 → d.cel.reads = [(q, i)] → d.readRecord i ≠ .wait → d.adm q = some a →
      Machine.exec .cellarReadDone s = .next { s with dev := (Dev.finish (d.served a i (d.readRecord i))) }) ∧
    -- clocks, power states, holds and ends (14, 15)
    (d.clk.clkinOk = true →
      (d.clk.pllOn = true → d.clk.locked = true → d.sys.ready = false → Machine.exec .pllUnlock s = .next { s with dev := (Dev.finish d.markUnlock.fallAll) }) ∧
      (∀ t : Ts, d.clk.pllOn = true → d.clk.locked = false → d.clk.unlockTs = some t → d.clk.unlockLate = false → d.past t (1 * ms) = true → d.alive = true →
        ∃ r : Rise, r.code = cPllUnlock ∧ r.sev = some .stopDevice ∧ Machine.exec .pllRelockTimeout s = .next { s with dev :=
          (Dev.finish (Dev.raise { d with clk := { d.clk with unlockLate := true } } r)) }) ∧
      (∀ (x : Dom) (e : Dev), (d.clk.dom x).step < 8 → e = { d with clk := d.clk.setDom x (d.clk.dom x).step1 } → e.domainsBack = false →
        Machine.exec (.rampStep x) s = .next { s with dev := (Dev.finish e) }) ∧
      (∀ x : Dom, (d.clk.dom x).src = .pll → d.alive = false → Machine.exec (.clkForced x) s = .next { s with dev :=
        (Dev.finish { d with clk := d.clk.setDom x ⟨.fallback, ratioFor (domLow x), 0, 0, 8, .fallback⟩ }) }) ∧
      (d.sys.phase ≠ .personalityError → ∃ e : Dev, Machine.exec .clkinLost s = .next { s with dev := (Dev.finish e) } ∧
        e.clk.clkinOk = false ∧ e.sys.ready = false ∧ e.sys.faultN = false ∧ ∀ p, (e.heads.get p).strobes = 0) ∧
      (d.sys.sleepIgnored = false → d.sys.sleepPin = false → Machine.exec .sleepRequest s = .next { s with dev :=
        (Dev.finish { d with sys := { d.sys with sleepPin := true, sleepTs := d.clk.now } }) }) ∧
      (d.sys.sleep = .awake → Machine.exec (.wake .sleepLow) s = .next { s with dev :=
        (Dev.finish { d with sys := { d.sys with sleepPin := false, sleepIgnored := false } }) })) ∧
    (d.clk.clkinOk = false → d.sys.phase = .noClock → d.pers.strapsDone = true → ∃ e : Dev, Machine.exec .clkinRestored s = .next { s with dev := (Dev.finish e) } ∧
      e.clk.clkinOk = true ∧ e.sys.resetKind = .safety ∧ e.sys.haltCode = cClkinLost ∧ e.clk.now = d.clk.now ∧ e.clk.tickNo = d.clk.tickNo) ∧
    (d.mayDoze = true → d.pairSecondary = false → ∃ e : Dev, Machine.exec .dozeEntry s = .next { s with dev := (Dev.finish e) } ∧
      e.sys.sleep = .doze ∧ (∀ x, (e.axes.get x).energised = false) ∧ e.win = d.win ∧ e.rings = d.rings) ∧
    (d.sys.sleep = .doze → d.alive = true → d.sys.sleepPin = true → d.past d.sys.dozeTs (10000 * ms) = true → d.mode = 0 → d.sys.wakeCause = none → ∃ e : Dev,
      Machine.exec .dormantEntry s = .next { s with dev := (Dev.finish e) } ∧ e.sys.sleep = .dormant ∧ e.sys.ready = false ∧ e.clk.pllOn = false ∧ e.win = d.win) ∧
    (d.operating = true →
      (∀ (q : Sequencer) (step : W32), d.sys.ready = true → d.stepCounts q = true → ∃ r : Rise, r.code = cSeqWatchdog ∧ r.sev = some .halt ∧
        Machine.exec (.seqWatchdog q step) s = .next { s with dev := (Dev.finish (d.drawFree.2.raiseHalt r)) }) ∧
      (∀ (p : Fin 4) (set : SampleSet) (t : Ts) (e : Dev), d.portOn p = true → (d.heads.get p).holdTs = some t → d.past t (20 * ms) = true →
        e = (d.onHead p fun h => { h with holdTs := none, rawTh := set.th.get p, rawVh := set.vh.get p }).setInputs [p] set noTick d.clk.now →
        Machine.exec (.firingHoldEnd p set) s = .next { s with dev :=
          (Dev.finish (((e.checkTherm p (set.th.get p)).checkSoft p (set.th.get p)).checkVh p (set.vh.get p))) }) ∧
      (∀ (p : Fin 4) (r : React), d.flt.active.find? (fun r => r.sev == .stopPort && r.port == p.val && d.mayEnd r) = some r →
        Machine.exec (.portReset p) s = .next { s with dev := (Dev.finish (d.concludeReact r)) }) ∧
      (∀ (seq : W32) (r : React), d.flt.active.find? (fun r => r.seq == seq && d.mayEnd r) = some r →
        Machine.exec (.reactionEnd seq) s = .next { s with dev := (Dev.finish (d.concludeReact r)) }) ∧
      (∀ margin : Quad (BitVec 16), d.sys.sleep = .awake → Machine.exec (.delayMonitor margin) s = .next { s with dev :=
        (Dev.finish (d.sliceMargins margin)) })) ∧
    -- the link (16)
    (∀ (f : LinkFrame) (c : Instr) (ty : Nat) (act : List Byte → Dev → Dev) (e : Dev),
      (c, ty, act) ∈ [(Instr.tickFrame f, 0x20, Dev.tickIn), (.planFrame f, 0x21, Dev.planIn), (.eventFrame f, 0x30, Dev.eventIn),
        (.echoFrame f, 0x22, Dev.echoIn), (.writeFrame f, 0x40, Dev.writeIn), (.syncFrame f, 0x10, Dev.syncIn), (.cellarFrame f, 0x50, Dev.cellarIn)] →
      d.linkLive = true → d.link.aligned = true → le f.bytes 0 1 = ty → le f.bytes 1 1 ≠ d.node → f.intact = true → frameGood f.bytes = true →
      (le f.bytes 2 1 = d.node ∨ le f.bytes 2 1 = 0xFF) → d.link.seen.contains (f.bytes.getD 1 0, f.bytes.getD 3 0) = false →
      e = { d with link := { (Link.accept { d.link with
        forwarded := (if d.link.fwdTs = d.clk.now then d.link.forwarded else []) ++ [(f.bytes, true)], fwdTs := d.clk.now }
          (f.bytes.getD 1 0) (f.bytes.getD 3 0)) with lastFrameTs := if d.fromPartner f.bytes then d.clk.now else d.link.lastFrameTs } } →
      Machine.exec c s = .next { s with dev := (Dev.finish (act f.bytes e)) }) ∧
    (d.linkLive = true →
      (d.link.aligned = false → Machine.exec .linkAligned s = .next { s with dev :=
        (Dev.finish { d with link := { d.link with aligned := true, alignTs := d.clk.now } }) }) ∧
      (d.mayMark = false → Machine.exec .syncSend s = .next { s with dev := (Dev.finish (d.sendSync none).drainUnits) }) ∧
      (∀ f : Flight, d.link.flights = [f] → f.tries < 3 → d.frameLate f.bytes = false → d.past f.ts (ceilDiv (d.tRing + 40) 4) = true → ∃ e : Dev,
        Machine.exec .linkFrameResend s = .next { s with dev := (Dev.finish e) } ∧ e.link.resends = d.link.resends + 1 ∧
        e.link.flights = [{ bytes := withAttempt f.bytes (f.tries + 1), tries := f.tries + 1, ts := d.clk.now }]) ∧
      (∀ e : Dev, d.link.aligned = true → d.alive = true → d.mode ≠ 0 → d.link.formed = false →
        e = { d with link := { d.link with aligned := false, alignTs := d.clk.now, downHeld := true, nodes := d.link.awaitNodes } } → ∃ r : Rise, r.code = cLinkDown ∧ r.sev = some .pause ∧
        Machine.exec (.linkDown true) s = .next { s with dev := (Dev.finish (e.raise r)) })) ∧
    (d.alive = true →
      (d.link.aligned = true → d.link.downHeld = true → d.link.joined = true → d.past d.link.alignTs (10 * ms) = true → (∀ n ∈ d.link.nodes, n.2.state = 3) →
        (∃ n ∈ d.link.nodes, n.1 / 2 = 0) → Machine.exec .linkUp s = .next { s with dev :=
          (Dev.finish (Dev.endCond { d with link := { d.link with downHeld := false } } cLinkDown 0)) }) ∧
      (∀ p : BitVec 2, d.mode ≠ 0 → d.link.aligned = true → d.link.downHeld = false → d.pos = 0 → p ≠ 0 → d.link.lostPos.getLsbD p.toNat = false → ∃ (r : Rise) (e : Dev),
        r.code = cPositionLost ∧ r.sev = some .pause ∧ e = { d with link := { d.link with lostPos := d.link.lostPos ||| BitVec.ofNat 4 (2 ^ p.toNat) } } ∧
        Machine.exec (.positionLost p) s = .next { s with dev := (Dev.finish (e.raise r)) }) ∧
      (3 ≤ d.link.skewRun → ∃ (r : Rise) (e : Dev), r.code = cTickSkew ∧ r.sev = some .pause ∧ e = { d with link := { d.link with skewRun := 0, stray := none } } ∧
        Machine.exec .tickSkew s = .next { s with dev := (Dev.finish (e.raise r)) }) ∧
      (d.pairSecondary = true → (d.link.released ≠ none ∨ d.past d.link.lastFrameTs 300 = true) → ∃ e : Dev,
        Machine.exec .takeover s = .next { s with dev := (Dev.finish e) } ∧ e.link.formed = false ∧ e.link.ownLow = true ∧ e.link.takeover.isSome = true)) ∧
    (2 ≤ d.mode → d.pos ≠ 0 → d.pers.valid = true → d.persError = false → d.clk.clkinOk = true → d.link.joined = true → ∃ (r : Rise) (e : Dev),
      r.code = cLinkDown ∧ r.sev = some .pause ∧ e = { d with link := { d.link with joined := false } } ∧
      Machine.exec .notJoined s = .next { s with dev := (Dev.finish (e.raise r)) }) ∧
    (d.role = 1 → d.pers.strapsDone = true → d.clk.clkinOk = true → d.sys.ready = false → d.link.partner = none → d.link.alone = false →
      d.link.dissolved = false → d.persError = false → ∃ (r : Rise) (e : Dev),
      r.code = cTwinMismatch ∧ r.sev = some .derate ∧ e = { d with link := { d.link with alone := true, ownLow := true } } ∧
      Machine.exec .noPartner s = .next { s with dev := (Dev.finish (e.raise r)) }) ∧
    (∀ w : QWrite, d.operating = true → d.pairSecondary = true → d.nextWrite = some w → Machine.exec .twinWriteApply s = .next { s with dev :=
      (Dev.finish ((Dev.hostWrite { d with link := { d.link with queue := d.link.queue.erase w } } (b2n w.fromLink) w.cells).applyChanges)) }) ∧
    -- the pins and the test port (17)
    (∀ above : Bool, Machine.exec (.vhioBankDetector above) s = .next { s with dev := (Dev.finish { d with sys := { d.sys with vhioOk := above } }) }) ∧
    (∀ (tms tdi : Bool) (cells : List Bool), Machine.exec (.testPortTckEdge false tms tdi true cells) s = .next { s with tap := s.tap.fall })
end

