-- ==== Sys2Proof/Laws/State.lean ====
section
/-! SUPPORT. What each small update of the device leaves alone, one lemma for each field and update, and the reads of the
fixed collections after a write. -/

namespace Sys2Proof

@[simp] theorem Quad.get_set_self {α : Type} (q : Quad α) (i : Fin 4) (v : α) : (q.set i v).get i = v := by
  match i with | 0 => rfl | 1 => rfl | 2 => rfl | 3 => rfl

theorem Quad.get_set_ne {α : Type} (q : Quad α) (i j : Fin 4) (v : α) (h : i ≠ j) : (q.set i v).get j = q.get j := by
  match i, j with
  | 0, 0 | 1, 1 | 2, 2 | 3, 3 => exact absurd rfl h
  | 0, 1 | 0, 2 | 0, 3 | 1, 0 | 1, 2 | 1, 3 | 2, 0 | 2, 1 | 2, 3 | 3, 0 | 3, 1 | 3, 2 => rfl

@[simp] theorem Quad.get_all {α : Type} (i : Fin 4) (v : α) : (Quad.all v).get i = v := by
  match i with | 0 => rfl | 1 => rfl | 2 => rfl | 3 => rfl

@[simp] theorem Quad.get_mapIdx {α β : Type} (q : Quad α) (f : Fin 4 → α → β) (i : Fin 4) :
    (q.mapIdx f).get i = f i (q.get i) := by
  match i with | 0 => rfl | 1 => rfl | 2 => rfl | 3 => rfl

@[simp] theorem Oct.get_set_self {α : Type} (q : Oct α) (i : Fin 8) (v : α) : (q.set i v).get i = v := by
  match i with | 0 => rfl | 1 => rfl | 2 => rfl | 3 => rfl | 4 => rfl | 5 => rfl | 6 => rfl | 7 => rfl

theorem Oct.get_set_ne {α : Type} (q : Oct α) (i j : Fin 8) (v : α) (h : i ≠ j) : (q.set i v).get j = q.get j := by
  revert h
  match i with
  | 0 => match j with | 0 => exact fun h => absurd rfl h | 1 | 2 | 3 | 4 | 5 | 6 | 7 => exact fun _ => rfl
  | 1 => match j with | 1 => exact fun h => absurd rfl h | 0 | 2 | 3 | 4 | 5 | 6 | 7 => exact fun _ => rfl
  | 2 => match j with | 2 => exact fun h => absurd rfl h | 0 | 1 | 3 | 4 | 5 | 6 | 7 => exact fun _ => rfl
  | 3 => match j with | 3 => exact fun h => absurd rfl h | 0 | 1 | 2 | 4 | 5 | 6 | 7 => exact fun _ => rfl
  | 4 => match j with | 4 => exact fun h => absurd rfl h | 0 | 1 | 2 | 3 | 5 | 6 | 7 => exact fun _ => rfl
  | 5 => match j with | 5 => exact fun h => absurd rfl h | 0 | 1 | 2 | 3 | 4 | 6 | 7 => exact fun _ => rfl
  | 6 => match j with | 6 => exact fun h => absurd rfl h | 0 | 1 | 2 | 3 | 4 | 5 | 7 => exact fun _ => rfl
  | 7 => match j with | 7 => exact fun h => absurd rfl h | 0 | 1 | 2 | 3 | 4 | 5 | 6 => exact fun _ => rfl

end Sys2Proof

namespace Sys2Proof.Machine

/-! Window memory, sections, counters of changes -/

@[simp] theorem Dev.poke_clk (d : Dev) (a : Nat) (vs : List Byte) : (d.poke a vs).clk = d.clk := by unfold Dev.poke; split <;> rfl
@[simp] theorem Dev.poke_sys (d : Dev) (a : Nat) (vs : List Byte) : (d.poke a vs).sys = d.sys := by unfold Dev.poke; split <;> rfl
@[simp] theorem Dev.poke_pers (d : Dev) (a : Nat) (vs : List Byte) : (d.poke a vs).pers = d.pers := by unfold Dev.poke; split <;> rfl
@[simp] theorem Dev.poke_port (d : Dev) (a : Nat) (vs : List Byte) : (d.poke a vs).port = d.port := by unfold Dev.poke; split <;> rfl
@[simp] theorem Dev.poke_rings (d : Dev) (a : Nat) (vs : List Byte) : (d.poke a vs).rings = d.rings := by unfold Dev.poke; split <;> rfl
@[simp] theorem Dev.poke_line (d : Dev) (a : Nat) (vs : List Byte) : (d.poke a vs).line = d.line := by unfold Dev.poke; split <;> rfl
@[simp] theorem Dev.poke_heads (d : Dev) (a : Nat) (vs : List Byte) : (d.poke a vs).heads = d.heads := by unfold Dev.poke; split <;> rfl
@[simp] theorem Dev.poke_taste (d : Dev) (a : Nat) (vs : List Byte) : (d.poke a vs).taste = d.taste := by unfold Dev.poke; split <;> rfl
@[simp] theorem Dev.poke_axes (d : Dev) (a : Nat) (vs : List Byte) : (d.poke a vs).axes = d.axes := by unfold Dev.poke; split <;> rfl
@[simp] theorem Dev.poke_mot (d : Dev) (a : Nat) (vs : List Byte) : (d.poke a vs).mot = d.mot := by unfold Dev.poke; split <;> rfl
@[simp] theorem Dev.poke_sense (d : Dev) (a : Nat) (vs : List Byte) : (d.poke a vs).sense = d.sense := by unfold Dev.poke; split <;> rfl
@[simp] theorem Dev.poke_media (d : Dev) (a : Nat) (vs : List Byte) : (d.poke a vs).media = d.media := by unfold Dev.poke; split <;> rfl
@[simp] theorem Dev.poke_sol (d : Dev) (a : Nat) (vs : List Byte) : (d.poke a vs).sol = d.sol := by unfold Dev.poke; split <;> rfl
@[simp] theorem Dev.poke_solx (d : Dev) (a : Nat) (vs : List Byte) : (d.poke a vs).solx = d.solx := by unfold Dev.poke; split <;> rfl
@[simp] theorem Dev.poke_uart (d : Dev) (a : Nat) (vs : List Byte) : (d.poke a vs).uart = d.uart := by unfold Dev.poke; split <;> rfl
@[simp] theorem Dev.poke_cel (d : Dev) (a : Nat) (vs : List Byte) : (d.poke a vs).cel = d.cel := by unfold Dev.poke; split <;> rfl
@[simp] theorem Dev.poke_flt (d : Dev) (a : Nat) (vs : List Byte) : (d.poke a vs).flt = d.flt := by unfold Dev.poke; split <;> rfl
@[simp] theorem Dev.poke_age (d : Dev) (a : Nat) (vs : List Byte) : (d.poke a vs).age = d.age := by unfold Dev.poke; split <;> rfl
@[simp] theorem Dev.poke_link (d : Dev) (a : Nat) (vs : List Byte) : (d.poke a vs).link = d.link := by unfold Dev.poke; split <;> rfl
@[simp] theorem Dev.setSec_clk (d : Dev) (n : Nat) (on : Bool) : (d.setSec n on).clk = d.clk := rfl
@[simp] theorem Dev.setSec_sys (d : Dev) (n : Nat) (on : Bool) : (d.setSec n on).sys = d.sys := rfl
@[simp] theorem Dev.setSec_pers (d : Dev) (n : Nat) (on : Bool) : (d.setSec n on).pers = d.pers := rfl
@[simp] theorem Dev.setSec_port (d : Dev) (n : Nat) (on : Bool) : (d.setSec n on).port = d.port := rfl
@[simp] theorem Dev.setSec_rings (d : Dev) (n : Nat) (on : Bool) : (d.setSec n on).rings = d.rings := rfl
@[simp] theorem Dev.setSec_line (d : Dev) (n : Nat) (on : Bool) : (d.setSec n on).line = d.line := rfl
@[simp] theorem Dev.setSec_heads (d : Dev) (n : Nat) (on : Bool) : (d.setSec n on).heads = d.heads := rfl
@[simp] theorem Dev.setSec_taste (d : Dev) (n : Nat) (on : Bool) : (d.setSec n on).taste = d.taste := rfl
@[simp] theorem Dev.setSec_axes (d : Dev) (n : Nat) (on : Bool) : (d.setSec n on).axes = d.axes := rfl
@[simp] theorem Dev.setSec_mot (d : Dev) (n : Nat) (on : Bool) : (d.setSec n on).mot = d.mot := rfl
@[simp] theorem Dev.setSec_sense (d : Dev) (n : Nat) (on : Bool) : (d.setSec n on).sense = d.sense := rfl
@[simp] theorem Dev.setSec_media (d : Dev) (n : Nat) (on : Bool) : (d.setSec n on).media = d.media := rfl
@[simp] theorem Dev.setSec_sol (d : Dev) (n : Nat) (on : Bool) : (d.setSec n on).sol = d.sol := rfl
@[simp] theorem Dev.setSec_solx (d : Dev) (n : Nat) (on : Bool) : (d.setSec n on).solx = d.solx := rfl
@[simp] theorem Dev.setSec_uart (d : Dev) (n : Nat) (on : Bool) : (d.setSec n on).uart = d.uart := rfl
@[simp] theorem Dev.setSec_cel (d : Dev) (n : Nat) (on : Bool) : (d.setSec n on).cel = d.cel := rfl
@[simp] theorem Dev.setSec_flt (d : Dev) (n : Nat) (on : Bool) : (d.setSec n on).flt = d.flt := rfl
@[simp] theorem Dev.setSec_age (d : Dev) (n : Nat) (on : Bool) : (d.setSec n on).age = d.age := rfl
@[simp] theorem Dev.setSec_link (d : Dev) (n : Nat) (on : Bool) : (d.setSec n on).link = d.link := rfl
@[simp] theorem Dev.noteChange_clk (d : Dev) (i a : Nat) : (d.noteChange i a).clk = d.clk := by unfold Dev.noteChange; split <;> rfl
@[simp] theorem Dev.noteChange_sys (d : Dev) (i a : Nat) : (d.noteChange i a).sys = d.sys := by unfold Dev.noteChange; split <;> rfl
@[simp] theorem Dev.noteChange_pers (d : Dev) (i a : Nat) : (d.noteChange i a).pers = d.pers := by unfold Dev.noteChange; split <;> rfl
@[simp] theorem Dev.noteChange_port (d : Dev) (i a : Nat) : (d.noteChange i a).port = d.port := by unfold Dev.noteChange; split <;> rfl
@[simp] theorem Dev.noteChange_win (d : Dev) (i a : Nat) : (d.noteChange i a).win = d.win := by unfold Dev.noteChange; split <;> rfl
@[simp] theorem Dev.noteChange_rings (d : Dev) (i a : Nat) : (d.noteChange i a).rings = d.rings := by unfold Dev.noteChange; split <;> rfl
@[simp] theorem Dev.noteChange_line (d : Dev) (i a : Nat) : (d.noteChange i a).line = d.line := by unfold Dev.noteChange; split <;> rfl
@[simp] theorem Dev.noteChange_heads (d : Dev) (i a : Nat) : (d.noteChange i a).heads = d.heads := by unfold Dev.noteChange; split <;> rfl
@[simp] theorem Dev.noteChange_taste (d : Dev) (i a : Nat) : (d.noteChange i a).taste = d.taste := by unfold Dev.noteChange; split <;> rfl
@[simp] theorem Dev.noteChange_axes (d : Dev) (i a : Nat) : (d.noteChange i a).axes = d.axes := by unfold Dev.noteChange; split <;> rfl
@[simp] theorem Dev.noteChange_mot (d : Dev) (i a : Nat) : (d.noteChange i a).mot = d.mot := by unfold Dev.noteChange; split <;> rfl
@[simp] theorem Dev.noteChange_sense (d : Dev) (i a : Nat) : (d.noteChange i a).sense = d.sense := by unfold Dev.noteChange; split <;> rfl
@[simp] theorem Dev.noteChange_media (d : Dev) (i a : Nat) : (d.noteChange i a).media = d.media := by unfold Dev.noteChange; split <;> rfl
@[simp] theorem Dev.noteChange_sol (d : Dev) (i a : Nat) : (d.noteChange i a).sol = d.sol := by unfold Dev.noteChange; split <;> rfl
@[simp] theorem Dev.noteChange_solx (d : Dev) (i a : Nat) : (d.noteChange i a).solx = d.solx := by unfold Dev.noteChange; split <;> rfl
@[simp] theorem Dev.noteChange_uart (d : Dev) (i a : Nat) : (d.noteChange i a).uart = d.uart := by unfold Dev.noteChange; split <;> rfl
@[simp] theorem Dev.noteChange_cel (d : Dev) (i a : Nat) : (d.noteChange i a).cel = d.cel := by unfold Dev.noteChange; split <;> rfl
@[simp] theorem Dev.noteChange_flt (d : Dev) (i a : Nat) : (d.noteChange i a).flt = d.flt := by unfold Dev.noteChange; split <;> rfl
@[simp] theorem Dev.noteChange_age (d : Dev) (i a : Nat) : (d.noteChange i a).age = d.age := by unfold Dev.noteChange; split <;> rfl
@[simp] theorem Dev.handBack_clk (d : Dev) (a : Nat) : (d.handBack a).clk = d.clk := by simp [Dev.handBack]
@[simp] theorem Dev.handBack_sys (d : Dev) (a : Nat) : (d.handBack a).sys = d.sys := by simp [Dev.handBack]
@[simp] theorem Dev.handBack_pers (d : Dev) (a : Nat) : (d.handBack a).pers = d.pers := by simp [Dev.handBack]
@[simp] theorem Dev.handBack_port (d : Dev) (a : Nat) : (d.handBack a).port = d.port := by simp [Dev.handBack]
@[simp] theorem Dev.handBack_rings (d : Dev) (a : Nat) : (d.handBack a).rings = d.rings := by simp [Dev.handBack]
@[simp] theorem Dev.handBack_line (d : Dev) (a : Nat) : (d.handBack a).line = d.line := by simp [Dev.handBack]
@[simp] theorem Dev.handBack_heads (d : Dev) (a : Nat) : (d.handBack a).heads = d.heads := by simp [Dev.handBack]
@[simp] theorem Dev.handBack_taste (d : Dev) (a : Nat) : (d.handBack a).taste = d.taste := by simp [Dev.handBack]
@[simp] theorem Dev.handBack_axes (d : Dev) (a : Nat) : (d.handBack a).axes = d.axes := by simp [Dev.handBack]
@[simp] theorem Dev.handBack_mot (d : Dev) (a : Nat) : (d.handBack a).mot = d.mot := by simp [Dev.handBack]
@[simp] theorem Dev.handBack_sense (d : Dev) (a : Nat) : (d.handBack a).sense = d.sense := by simp [Dev.handBack]
@[simp] theorem Dev.handBack_media (d : Dev) (a : Nat) : (d.handBack a).media = d.media := by simp [Dev.handBack]
@[simp] theorem Dev.handBack_sol (d : Dev) (a : Nat) : (d.handBack a).sol = d.sol := by simp [Dev.handBack]
@[simp] theorem Dev.handBack_solx (d : Dev) (a : Nat) : (d.handBack a).solx = d.solx := by simp [Dev.handBack]
@[simp] theorem Dev.handBack_uart (d : Dev) (a : Nat) : (d.handBack a).uart = d.uart := by simp [Dev.handBack]
@[simp] theorem Dev.handBack_cel (d : Dev) (a : Nat) : (d.handBack a).cel = d.cel := by simp [Dev.handBack]
@[simp] theorem Dev.handBack_flt (d : Dev) (a : Nat) : (d.handBack a).flt = d.flt := by simp [Dev.handBack]
@[simp] theorem Dev.handBack_age (d : Dev) (a : Nat) : (d.handBack a).age = d.age := by simp [Dev.handBack]

/-! FAULT_N and free values -/

@[simp] theorem Dev.faultLow_clk (d : Dev) : (d.faultLow).clk = d.clk := by unfold Dev.faultLow; split <;> rfl
@[simp] theorem Dev.faultLow_pers (d : Dev) : (d.faultLow).pers = d.pers := by unfold Dev.faultLow; split <;> rfl
@[simp] theorem Dev.faultLow_port (d : Dev) : (d.faultLow).port = d.port := by unfold Dev.faultLow; split <;> rfl
@[simp] theorem Dev.faultLow_win (d : Dev) : (d.faultLow).win = d.win := by unfold Dev.faultLow; split <;> rfl
@[simp] theorem Dev.faultLow_rings (d : Dev) : (d.faultLow).rings = d.rings := by unfold Dev.faultLow; split <;> rfl
@[simp] theorem Dev.faultLow_line (d : Dev) : (d.faultLow).line = d.line := by unfold Dev.faultLow; split <;> rfl
@[simp] theorem Dev.faultLow_heads (d : Dev) : (d.faultLow).heads = d.heads := by unfold Dev.faultLow; split <;> rfl
@[simp] theorem Dev.faultLow_taste (d : Dev) : (d.faultLow).taste = d.taste := by unfold Dev.faultLow; split <;> rfl
@[simp] theorem Dev.faultLow_axes (d : Dev) : (d.faultLow).axes = d.axes := by unfold Dev.faultLow; split <;> rfl
@[simp] theorem Dev.faultLow_mot (d : Dev) : (d.faultLow).mot = d.mot := by unfold Dev.faultLow; split <;> rfl
@[simp] theorem Dev.faultLow_sense (d : Dev) : (d.faultLow).sense = d.sense := by unfold Dev.faultLow; split <;> rfl
@[simp] theorem Dev.faultLow_media (d : Dev) : (d.faultLow).media = d.media := by unfold Dev.faultLow; split <;> rfl
@[simp] theorem Dev.faultLow_sol (d : Dev) : (d.faultLow).sol = d.sol := by unfold Dev.faultLow; split <;> rfl
@[simp] theorem Dev.faultLow_solx (d : Dev) : (d.faultLow).solx = d.solx := by unfold Dev.faultLow; split <;> rfl
@[simp] theorem Dev.faultLow_uart (d : Dev) : (d.faultLow).uart = d.uart := by unfold Dev.faultLow; split <;> rfl
@[simp] theorem Dev.faultLow_cel (d : Dev) : (d.faultLow).cel = d.cel := by unfold Dev.faultLow; split <;> rfl
@[simp] theorem Dev.faultLow_flt (d : Dev) : (d.faultLow).flt = d.flt := by unfold Dev.faultLow; split <;> rfl
@[simp] theorem Dev.faultLow_age (d : Dev) : (d.faultLow).age = d.age := by unfold Dev.faultLow; split <;> rfl
@[simp] theorem Dev.faultLow_link (d : Dev) : (d.faultLow).link = d.link := by unfold Dev.faultLow; split <;> rfl
@[simp] theorem Dev.faultRelease_clk (d : Dev) : (d.faultRelease).clk = d.clk := by unfold Dev.faultRelease; split <;> rfl
@[simp] theorem Dev.faultRelease_pers (d : Dev) : (d.faultRelease).pers = d.pers := by unfold Dev.faultRelease; split <;> rfl
@[simp] theorem Dev.faultRelease_port (d : Dev) : (d.faultRelease).port = d.port := by unfold Dev.faultRelease; split <;> rfl
@[simp] theorem Dev.faultRelease_win (d : Dev) : (d.faultRelease).win = d.win := by unfold Dev.faultRelease; split <;> rfl
@[simp] theorem Dev.faultRelease_rings (d : Dev) : (d.faultRelease).rings = d.rings := by unfold Dev.faultRelease; split <;> rfl
@[simp] theorem Dev.faultRelease_line (d : Dev) : (d.faultRelease).line = d.line := by unfold Dev.faultRelease; split <;> rfl
@[simp] theorem Dev.faultRelease_heads (d : Dev) : (d.faultRelease).heads = d.heads := by unfold Dev.faultRelease; split <;> rfl
@[simp] theorem Dev.faultRelease_taste (d : Dev) : (d.faultRelease).taste = d.taste := by unfold Dev.faultRelease; split <;> rfl
@[simp] theorem Dev.faultRelease_axes (d : Dev) : (d.faultRelease).axes = d.axes := by unfold Dev.faultRelease; split <;> rfl
@[simp] theorem Dev.faultRelease_mot (d : Dev) : (d.faultRelease).mot = d.mot := by unfold Dev.faultRelease; split <;> rfl
@[simp] theorem Dev.faultRelease_sense (d : Dev) : (d.faultRelease).sense = d.sense := by unfold Dev.faultRelease; split <;> rfl
@[simp] theorem Dev.faultRelease_media (d : Dev) : (d.faultRelease).media = d.media := by unfold Dev.faultRelease; split <;> rfl
@[simp] theorem Dev.faultRelease_sol (d : Dev) : (d.faultRelease).sol = d.sol := by unfold Dev.faultRelease; split <;> rfl
@[simp] theorem Dev.faultRelease_solx (d : Dev) : (d.faultRelease).solx = d.solx := by unfold Dev.faultRelease; split <;> rfl
@[simp] theorem Dev.faultRelease_uart (d : Dev) : (d.faultRelease).uart = d.uart := by unfold Dev.faultRelease; split <;> rfl
@[simp] theorem Dev.faultRelease_cel (d : Dev) : (d.faultRelease).cel = d.cel := by unfold Dev.faultRelease; split <;> rfl
@[simp] theorem Dev.faultRelease_flt (d : Dev) : (d.faultRelease).flt = d.flt := by unfold Dev.faultRelease; split <;> rfl
@[simp] theorem Dev.faultRelease_age (d : Dev) : (d.faultRelease).age = d.age := by unfold Dev.faultRelease; split <;> rfl
@[simp] theorem Dev.faultRelease_link (d : Dev) : (d.faultRelease).link = d.link := by unfold Dev.faultRelease; split <;> rfl
@[simp] theorem Dev.drawFree_clk (d : Dev) : (d.drawFree.2).clk = d.clk := rfl
@[simp] theorem Dev.drawFree_pers (d : Dev) : (d.drawFree.2).pers = d.pers := rfl
@[simp] theorem Dev.drawFree_port (d : Dev) : (d.drawFree.2).port = d.port := rfl
@[simp] theorem Dev.drawFree_win (d : Dev) : (d.drawFree.2).win = d.win := rfl
@[simp] theorem Dev.drawFree_rings (d : Dev) : (d.drawFree.2).rings = d.rings := rfl
@[simp] theorem Dev.drawFree_line (d : Dev) : (d.drawFree.2).line = d.line := rfl
@[simp] theorem Dev.drawFree_heads (d : Dev) : (d.drawFree.2).heads = d.heads := rfl
@[simp] theorem Dev.drawFree_taste (d : Dev) : (d.drawFree.2).taste = d.taste := rfl
@[simp] theorem Dev.drawFree_axes (d : Dev) : (d.drawFree.2).axes = d.axes := rfl
@[simp] theorem Dev.drawFree_mot (d : Dev) : (d.drawFree.2).mot = d.mot := rfl
@[simp] theorem Dev.drawFree_sense (d : Dev) : (d.drawFree.2).sense = d.sense := rfl
@[simp] theorem Dev.drawFree_media (d : Dev) : (d.drawFree.2).media = d.media := rfl
@[simp] theorem Dev.drawFree_sol (d : Dev) : (d.drawFree.2).sol = d.sol := rfl
@[simp] theorem Dev.drawFree_solx (d : Dev) : (d.drawFree.2).solx = d.solx := rfl
@[simp] theorem Dev.drawFree_uart (d : Dev) : (d.drawFree.2).uart = d.uart := rfl
@[simp] theorem Dev.drawFree_cel (d : Dev) : (d.drawFree.2).cel = d.cel := rfl
@[simp] theorem Dev.drawFree_flt (d : Dev) : (d.drawFree.2).flt = d.flt := rfl
@[simp] theorem Dev.drawFree_age (d : Dev) : (d.drawFree.2).age = d.age := rfl
@[simp] theorem Dev.drawFree_link (d : Dev) : (d.drawFree.2).link = d.link := rfl

/-! Heads, axes, channels, runs, admitted records -/

@[simp] theorem Dev.onHead_clk (d : Dev) (p : Fin 4) (f : Head → Head) : (d.onHead p f).clk = d.clk := rfl
@[simp] theorem Dev.onHead_sys (d : Dev) (p : Fin 4) (f : Head → Head) : (d.onHead p f).sys = d.sys := rfl
@[simp] theorem Dev.onHead_pers (d : Dev) (p : Fin 4) (f : Head → Head) : (d.onHead p f).pers = d.pers := rfl
@[simp] theorem Dev.onHead_port (d : Dev) (p : Fin 4) (f : Head → Head) : (d.onHead p f).port = d.port := rfl
@[simp] theorem Dev.onHead_win (d : Dev) (p : Fin 4) (f : Head → Head) : (d.onHead p f).win = d.win := rfl
@[simp] theorem Dev.onHead_rings (d : Dev) (p : Fin 4) (f : Head → Head) : (d.onHead p f).rings = d.rings := rfl
@[simp] theorem Dev.onHead_line (d : Dev) (p : Fin 4) (f : Head → Head) : (d.onHead p f).line = d.line := rfl
@[simp] theorem Dev.onHead_taste (d : Dev) (p : Fin 4) (f : Head → Head) : (d.onHead p f).taste = d.taste := rfl
@[simp] theorem Dev.onHead_axes (d : Dev) (p : Fin 4) (f : Head → Head) : (d.onHead p f).axes = d.axes := rfl
@[simp] theorem Dev.onHead_mot (d : Dev) (p : Fin 4) (f : Head → Head) : (d.onHead p f).mot = d.mot := rfl
@[simp] theorem Dev.onHead_sense (d : Dev) (p : Fin 4) (f : Head → Head) : (d.onHead p f).sense = d.sense := rfl
@[simp] theorem Dev.onHead_media (d : Dev) (p : Fin 4) (f : Head → Head) : (d.onHead p f).media = d.media := rfl
@[simp] theorem Dev.onHead_sol (d : Dev) (p : Fin 4) (f : Head → Head) : (d.onHead p f).sol = d.sol := rfl
@[simp] theorem Dev.onHead_solx (d : Dev) (p : Fin 4) (f : Head → Head) : (d.onHead p f).solx = d.solx := rfl
@[simp] theorem Dev.onHead_uart (d : Dev) (p : Fin 4) (f : Head → Head) : (d.onHead p f).uart = d.uart := rfl
@[simp] theorem Dev.onHead_cel (d : Dev) (p : Fin 4) (f : Head → Head) : (d.onHead p f).cel = d.cel := rfl
@[simp] theorem Dev.onHead_flt (d : Dev) (p : Fin 4) (f : Head → Head) : (d.onHead p f).flt = d.flt := rfl
@[simp] theorem Dev.onHead_age (d : Dev) (p : Fin 4) (f : Head → Head) : (d.onHead p f).age = d.age := rfl
@[simp] theorem Dev.onHead_link (d : Dev) (p : Fin 4) (f : Head → Head) : (d.onHead p f).link = d.link := rfl
@[simp] theorem Dev.onAxis_clk (d : Dev) (x : Fin 4) (f : Axis → Axis) : (d.onAxis x f).clk = d.clk := rfl
@[simp] theorem Dev.onAxis_sys (d : Dev) (x : Fin 4) (f : Axis → Axis) : (d.onAxis x f).sys = d.sys := rfl
@[simp] theorem Dev.onAxis_pers (d : Dev) (x : Fin 4) (f : Axis → Axis) : (d.onAxis x f).pers = d.pers := rfl
@[simp] theorem Dev.onAxis_port (d : Dev) (x : Fin 4) (f : Axis → Axis) : (d.onAxis x f).port = d.port := rfl
@[simp] theorem Dev.onAxis_win (d : Dev) (x : Fin 4) (f : Axis → Axis) : (d.onAxis x f).win = d.win := rfl
@[simp] theorem Dev.onAxis_rings (d : Dev) (x : Fin 4) (f : Axis → Axis) : (d.onAxis x f).rings = d.rings := rfl
@[simp] theorem Dev.onAxis_line (d : Dev) (x : Fin 4) (f : Axis → Axis) : (d.onAxis x f).line = d.line := rfl
@[simp] theorem Dev.onAxis_heads (d : Dev) (x : Fin 4) (f : Axis → Axis) : (d.onAxis x f).heads = d.heads := rfl
@[simp] theorem Dev.onAxis_taste (d : Dev) (x : Fin 4) (f : Axis → Axis) : (d.onAxis x f).taste = d.taste := rfl
@[simp] theorem Dev.onAxis_mot (d : Dev) (x : Fin 4) (f : Axis → Axis) : (d.onAxis x f).mot = d.mot := rfl
@[simp] theorem Dev.onAxis_sense (d : Dev) (x : Fin 4) (f : Axis → Axis) : (d.onAxis x f).sense = d.sense := rfl
@[simp] theorem Dev.onAxis_media (d : Dev) (x : Fin 4) (f : Axis → Axis) : (d.onAxis x f).media = d.media := rfl
@[simp] theorem Dev.onAxis_sol (d : Dev) (x : Fin 4) (f : Axis → Axis) : (d.onAxis x f).sol = d.sol := rfl
@[simp] theorem Dev.onAxis_solx (d : Dev) (x : Fin 4) (f : Axis → Axis) : (d.onAxis x f).solx = d.solx := rfl
@[simp] theorem Dev.onAxis_uart (d : Dev) (x : Fin 4) (f : Axis → Axis) : (d.onAxis x f).uart = d.uart := rfl
@[simp] theorem Dev.onAxis_cel (d : Dev) (x : Fin 4) (f : Axis → Axis) : (d.onAxis x f).cel = d.cel := rfl
@[simp] theorem Dev.onAxis_flt (d : Dev) (x : Fin 4) (f : Axis → Axis) : (d.onAxis x f).flt = d.flt := rfl
@[simp] theorem Dev.onAxis_age (d : Dev) (x : Fin 4) (f : Axis → Axis) : (d.onAxis x f).age = d.age := rfl
@[simp] theorem Dev.onAxis_link (d : Dev) (x : Fin 4) (f : Axis → Axis) : (d.onAxis x f).link = d.link := rfl
@[simp] theorem Dev.onSol_clk (d : Dev) (c : Fin 8) (f : Sol → Sol) : (d.onSol c f).clk = d.clk := rfl
@[simp] theorem Dev.onSol_sys (d : Dev) (c : Fin 8) (f : Sol → Sol) : (d.onSol c f).sys = d.sys := rfl
@[simp] theorem Dev.onSol_pers (d : Dev) (c : Fin 8) (f : Sol → Sol) : (d.onSol c f).pers = d.pers := rfl
@[simp] theorem Dev.onSol_port (d : Dev) (c : Fin 8) (f : Sol → Sol) : (d.onSol c f).port = d.port := rfl
@[simp] theorem Dev.onSol_win (d : Dev) (c : Fin 8) (f : Sol → Sol) : (d.onSol c f).win = d.win := rfl
@[simp] theorem Dev.onSol_rings (d : Dev) (c : Fin 8) (f : Sol → Sol) : (d.onSol c f).rings = d.rings := rfl
@[simp] theorem Dev.onSol_line (d : Dev) (c : Fin 8) (f : Sol → Sol) : (d.onSol c f).line = d.line := rfl
@[simp] theorem Dev.onSol_heads (d : Dev) (c : Fin 8) (f : Sol → Sol) : (d.onSol c f).heads = d.heads := rfl
@[simp] theorem Dev.onSol_taste (d : Dev) (c : Fin 8) (f : Sol → Sol) : (d.onSol c f).taste = d.taste := rfl
@[simp] theorem Dev.onSol_axes (d : Dev) (c : Fin 8) (f : Sol → Sol) : (d.onSol c f).axes = d.axes := rfl
@[simp] theorem Dev.onSol_mot (d : Dev) (c : Fin 8) (f : Sol → Sol) : (d.onSol c f).mot = d.mot := rfl
@[simp] theorem Dev.onSol_sense (d : Dev) (c : Fin 8) (f : Sol → Sol) : (d.onSol c f).sense = d.sense := rfl
@[simp] theorem Dev.onSol_media (d : Dev) (c : Fin 8) (f : Sol → Sol) : (d.onSol c f).media = d.media := rfl
@[simp] theorem Dev.onSol_solx (d : Dev) (c : Fin 8) (f : Sol → Sol) : (d.onSol c f).solx = d.solx := rfl
@[simp] theorem Dev.onSol_uart (d : Dev) (c : Fin 8) (f : Sol → Sol) : (d.onSol c f).uart = d.uart := rfl
@[simp] theorem Dev.onSol_cel (d : Dev) (c : Fin 8) (f : Sol → Sol) : (d.onSol c f).cel = d.cel := rfl
@[simp] theorem Dev.onSol_flt (d : Dev) (c : Fin 8) (f : Sol → Sol) : (d.onSol c f).flt = d.flt := rfl
@[simp] theorem Dev.onSol_age (d : Dev) (c : Fin 8) (f : Sol → Sol) : (d.onSol c f).age = d.age := rfl
@[simp] theorem Dev.onSol_link (d : Dev) (c : Fin 8) (f : Sol → Sol) : (d.onSol c f).link = d.link := rfl
@[simp] theorem Dev.onRun_clk (d : Dev) (q : W32) (f : SolRun → SolRun) : (d.onRun q f).clk = d.clk := rfl
@[simp] theorem Dev.onRun_sys (d : Dev) (q : W32) (f : SolRun → SolRun) : (d.onRun q f).sys = d.sys := rfl
@[simp] theorem Dev.onRun_pers (d : Dev) (q : W32) (f : SolRun → SolRun) : (d.onRun q f).pers = d.pers := rfl
@[simp] theorem Dev.onRun_port (d : Dev) (q : W32) (f : SolRun → SolRun) : (d.onRun q f).port = d.port := rfl
@[simp] theorem Dev.onRun_win (d : Dev) (q : W32) (f : SolRun → SolRun) : (d.onRun q f).win = d.win := rfl
@[simp] theorem Dev.onRun_rings (d : Dev) (q : W32) (f : SolRun → SolRun) : (d.onRun q f).rings = d.rings := rfl
@[simp] theorem Dev.onRun_line (d : Dev) (q : W32) (f : SolRun → SolRun) : (d.onRun q f).line = d.line := rfl
@[simp] theorem Dev.onRun_heads (d : Dev) (q : W32) (f : SolRun → SolRun) : (d.onRun q f).heads = d.heads := rfl
@[simp] theorem Dev.onRun_taste (d : Dev) (q : W32) (f : SolRun → SolRun) : (d.onRun q f).taste = d.taste := rfl
@[simp] theorem Dev.onRun_axes (d : Dev) (q : W32) (f : SolRun → SolRun) : (d.onRun q f).axes = d.axes := rfl
@[simp] theorem Dev.onRun_mot (d : Dev) (q : W32) (f : SolRun → SolRun) : (d.onRun q f).mot = d.mot := rfl
@[simp] theorem Dev.onRun_sense (d : Dev) (q : W32) (f : SolRun → SolRun) : (d.onRun q f).sense = d.sense := rfl
@[simp] theorem Dev.onRun_media (d : Dev) (q : W32) (f : SolRun → SolRun) : (d.onRun q f).media = d.media := rfl
@[simp] theorem Dev.onRun_sol (d : Dev) (q : W32) (f : SolRun → SolRun) : (d.onRun q f).sol = d.sol := rfl
@[simp] theorem Dev.onRun_uart (d : Dev) (q : W32) (f : SolRun → SolRun) : (d.onRun q f).uart = d.uart := rfl
@[simp] theorem Dev.onRun_cel (d : Dev) (q : W32) (f : SolRun → SolRun) : (d.onRun q f).cel = d.cel := rfl
@[simp] theorem Dev.onRun_flt (d : Dev) (q : W32) (f : SolRun → SolRun) : (d.onRun q f).flt = d.flt := rfl
@[simp] theorem Dev.onRun_age (d : Dev) (q : W32) (f : SolRun → SolRun) : (d.onRun q f).age = d.age := rfl
@[simp] theorem Dev.onRun_link (d : Dev) (q : W32) (f : SolRun → SolRun) : (d.onRun q f).link = d.link := rfl
@[simp] theorem Dev.onAdm_clk (d : Dev) (q : W32) (f : Adm → Adm) : (d.onAdm q f).clk = d.clk := rfl
@[simp] theorem Dev.onAdm_sys (d : Dev) (q : W32) (f : Adm → Adm) : (d.onAdm q f).sys = d.sys := rfl
@[simp] theorem Dev.onAdm_pers (d : Dev) (q : W32) (f : Adm → Adm) : (d.onAdm q f).pers = d.pers := rfl
@[simp] theorem Dev.onAdm_port (d : Dev) (q : W32) (f : Adm → Adm) : (d.onAdm q f).port = d.port := rfl
@[simp] theorem Dev.onAdm_win (d : Dev) (q : W32) (f : Adm → Adm) : (d.onAdm q f).win = d.win := rfl
@[simp] theorem Dev.onAdm_line (d : Dev) (q : W32) (f : Adm → Adm) : (d.onAdm q f).line = d.line := rfl
@[simp] theorem Dev.onAdm_heads (d : Dev) (q : W32) (f : Adm → Adm) : (d.onAdm q f).heads = d.heads := rfl
@[simp] theorem Dev.onAdm_taste (d : Dev) (q : W32) (f : Adm → Adm) : (d.onAdm q f).taste = d.taste := rfl
@[simp] theorem Dev.onAdm_axes (d : Dev) (q : W32) (f : Adm → Adm) : (d.onAdm q f).axes = d.axes := rfl
@[simp] theorem Dev.onAdm_mot (d : Dev) (q : W32) (f : Adm → Adm) : (d.onAdm q f).mot = d.mot := rfl
@[simp] theorem Dev.onAdm_sense (d : Dev) (q : W32) (f : Adm → Adm) : (d.onAdm q f).sense = d.sense := rfl
@[simp] theorem Dev.onAdm_media (d : Dev) (q : W32) (f : Adm → Adm) : (d.onAdm q f).media = d.media := rfl
@[simp] theorem Dev.onAdm_sol (d : Dev) (q : W32) (f : Adm → Adm) : (d.onAdm q f).sol = d.sol := rfl
@[simp] theorem Dev.onAdm_solx (d : Dev) (q : W32) (f : Adm → Adm) : (d.onAdm q f).solx = d.solx := rfl
@[simp] theorem Dev.onAdm_uart (d : Dev) (q : W32) (f : Adm → Adm) : (d.onAdm q f).uart = d.uart := rfl
@[simp] theorem Dev.onAdm_cel (d : Dev) (q : W32) (f : Adm → Adm) : (d.onAdm q f).cel = d.cel := rfl
@[simp] theorem Dev.onAdm_flt (d : Dev) (q : W32) (f : Adm → Adm) : (d.onAdm q f).flt = d.flt := rfl
@[simp] theorem Dev.onAdm_age (d : Dev) (q : W32) (f : Adm → Adm) : (d.onAdm q f).age = d.age := rfl
@[simp] theorem Dev.onAdm_link (d : Dev) (q : W32) (f : Adm → Adm) : (d.onAdm q f).link = d.link := rfl
@[simp] theorem Dev.setWait_clk (d : Dev) (q : W32) (w : Option (W16 × W32)) : (d.setWait q w).clk = d.clk := rfl
@[simp] theorem Dev.setWait_sys (d : Dev) (q : W32) (w : Option (W16 × W32)) : (d.setWait q w).sys = d.sys := rfl
@[simp] theorem Dev.setWait_pers (d : Dev) (q : W32) (w : Option (W16 × W32)) : (d.setWait q w).pers = d.pers := rfl
@[simp] theorem Dev.setWait_port (d : Dev) (q : W32) (w : Option (W16 × W32)) : (d.setWait q w).port = d.port := rfl
@[simp] theorem Dev.setWait_win (d : Dev) (q : W32) (w : Option (W16 × W32)) : (d.setWait q w).win = d.win := rfl
@[simp] theorem Dev.setWait_line (d : Dev) (q : W32) (w : Option (W16 × W32)) : (d.setWait q w).line = d.line := rfl
@[simp] theorem Dev.setWait_heads (d : Dev) (q : W32) (w : Option (W16 × W32)) : (d.setWait q w).heads = d.heads := rfl
@[simp] theorem Dev.setWait_taste (d : Dev) (q : W32) (w : Option (W16 × W32)) : (d.setWait q w).taste = d.taste := rfl
@[simp] theorem Dev.setWait_axes (d : Dev) (q : W32) (w : Option (W16 × W32)) : (d.setWait q w).axes = d.axes := rfl
@[simp] theorem Dev.setWait_mot (d : Dev) (q : W32) (w : Option (W16 × W32)) : (d.setWait q w).mot = d.mot := rfl
@[simp] theorem Dev.setWait_sense (d : Dev) (q : W32) (w : Option (W16 × W32)) : (d.setWait q w).sense = d.sense := rfl
@[simp] theorem Dev.setWait_media (d : Dev) (q : W32) (w : Option (W16 × W32)) : (d.setWait q w).media = d.media := rfl
@[simp] theorem Dev.setWait_sol (d : Dev) (q : W32) (w : Option (W16 × W32)) : (d.setWait q w).sol = d.sol := rfl
@[simp] theorem Dev.setWait_solx (d : Dev) (q : W32) (w : Option (W16 × W32)) : (d.setWait q w).solx = d.solx := rfl
@[simp] theorem Dev.setWait_uart (d : Dev) (q : W32) (w : Option (W16 × W32)) : (d.setWait q w).uart = d.uart := rfl
@[simp] theorem Dev.setWait_cel (d : Dev) (q : W32) (w : Option (W16 × W32)) : (d.setWait q w).cel = d.cel := rfl
@[simp] theorem Dev.setWait_flt (d : Dev) (q : W32) (w : Option (W16 × W32)) : (d.setWait q w).flt = d.flt := rfl
@[simp] theorem Dev.setWait_age (d : Dev) (q : W32) (w : Option (W16 × W32)) : (d.setWait q w).age = d.age := rfl
@[simp] theorem Dev.setWait_link (d : Dev) (q : W32) (w : Option (W16 × W32)) : (d.setWait q w).link = d.link := rfl

/-! The ageing ledger -/

@[simp] theorem Dev.ledSet_clk (d : Dev) (a n v : Nat) : (d.ledSet a n v).clk = d.clk := rfl
@[simp] theorem Dev.ledSet_sys (d : Dev) (a n v : Nat) : (d.ledSet a n v).sys = d.sys := rfl
@[simp] theorem Dev.ledSet_pers (d : Dev) (a n v : Nat) : (d.ledSet a n v).pers = d.pers := rfl
@[simp] theorem Dev.ledSet_port (d : Dev) (a n v : Nat) : (d.ledSet a n v).port = d.port := rfl
@[simp] theorem Dev.ledSet_win (d : Dev) (a n v : Nat) : (d.ledSet a n v).win = d.win := rfl
@[simp] theorem Dev.ledSet_rings (d : Dev) (a n v : Nat) : (d.ledSet a n v).rings = d.rings := rfl
@[simp] theorem Dev.ledSet_line (d : Dev) (a n v : Nat) : (d.ledSet a n v).line = d.line := rfl
@[simp] theorem Dev.ledSet_heads (d : Dev) (a n v : Nat) : (d.ledSet a n v).heads = d.heads := rfl
@[simp] theorem Dev.ledSet_taste (d : Dev) (a n v : Nat) : (d.ledSet a n v).taste = d.taste := rfl
@[simp] theorem Dev.ledSet_axes (d : Dev) (a n v : Nat) : (d.ledSet a n v).axes = d.axes := rfl
@[simp] theorem Dev.ledSet_mot (d : Dev) (a n v : Nat) : (d.ledSet a n v).mot = d.mot := rfl
@[simp] theorem Dev.ledSet_sense (d : Dev) (a n v : Nat) : (d.ledSet a n v).sense = d.sense := rfl
@[simp] theorem Dev.ledSet_media (d : Dev) (a n v : Nat) : (d.ledSet a n v).media = d.media := rfl
@[simp] theorem Dev.ledSet_sol (d : Dev) (a n v : Nat) : (d.ledSet a n v).sol = d.sol := rfl
@[simp] theorem Dev.ledSet_solx (d : Dev) (a n v : Nat) : (d.ledSet a n v).solx = d.solx := rfl
@[simp] theorem Dev.ledSet_uart (d : Dev) (a n v : Nat) : (d.ledSet a n v).uart = d.uart := rfl
@[simp] theorem Dev.ledSet_cel (d : Dev) (a n v : Nat) : (d.ledSet a n v).cel = d.cel := rfl
@[simp] theorem Dev.ledSet_flt (d : Dev) (a n v : Nat) : (d.ledSet a n v).flt = d.flt := rfl
@[simp] theorem Dev.ledSet_link (d : Dev) (a n v : Nat) : (d.ledSet a n v).link = d.link := rfl
@[simp] theorem Dev.ledAdd_clk (d : Dev) (a n v : Nat) : (d.ledAdd a n v).clk = d.clk := rfl
@[simp] theorem Dev.ledAdd_sys (d : Dev) (a n v : Nat) : (d.ledAdd a n v).sys = d.sys := rfl
@[simp] theorem Dev.ledAdd_pers (d : Dev) (a n v : Nat) : (d.ledAdd a n v).pers = d.pers := rfl
@[simp] theorem Dev.ledAdd_port (d : Dev) (a n v : Nat) : (d.ledAdd a n v).port = d.port := rfl
@[simp] theorem Dev.ledAdd_win (d : Dev) (a n v : Nat) : (d.ledAdd a n v).win = d.win := rfl
@[simp] theorem Dev.ledAdd_rings (d : Dev) (a n v : Nat) : (d.ledAdd a n v).rings = d.rings := rfl
@[simp] theorem Dev.ledAdd_line (d : Dev) (a n v : Nat) : (d.ledAdd a n v).line = d.line := rfl
@[simp] theorem Dev.ledAdd_heads (d : Dev) (a n v : Nat) : (d.ledAdd a n v).heads = d.heads := rfl
@[simp] theorem Dev.ledAdd_taste (d : Dev) (a n v : Nat) : (d.ledAdd a n v).taste = d.taste := rfl
@[simp] theorem Dev.ledAdd_axes (d : Dev) (a n v : Nat) : (d.ledAdd a n v).axes = d.axes := rfl
@[simp] theorem Dev.ledAdd_mot (d : Dev) (a n v : Nat) : (d.ledAdd a n v).mot = d.mot := rfl
@[simp] theorem Dev.ledAdd_sense (d : Dev) (a n v : Nat) : (d.ledAdd a n v).sense = d.sense := rfl
@[simp] theorem Dev.ledAdd_media (d : Dev) (a n v : Nat) : (d.ledAdd a n v).media = d.media := rfl
@[simp] theorem Dev.ledAdd_sol (d : Dev) (a n v : Nat) : (d.ledAdd a n v).sol = d.sol := rfl
@[simp] theorem Dev.ledAdd_solx (d : Dev) (a n v : Nat) : (d.ledAdd a n v).solx = d.solx := rfl
@[simp] theorem Dev.ledAdd_uart (d : Dev) (a n v : Nat) : (d.ledAdd a n v).uart = d.uart := rfl
@[simp] theorem Dev.ledAdd_cel (d : Dev) (a n v : Nat) : (d.ledAdd a n v).cel = d.cel := rfl
@[simp] theorem Dev.ledAdd_flt (d : Dev) (a n v : Nat) : (d.ledAdd a n v).flt = d.flt := rfl
@[simp] theorem Dev.ledAdd_link (d : Dev) (a n v : Nat) : (d.ledAdd a n v).link = d.link := rfl

/-! Reactions -/

@[simp] theorem Dev.endCond_clk (d : Dev) (c : W16) (s : Nat) : (d.endCond c s).clk = d.clk := rfl
@[simp] theorem Dev.endCond_sys (d : Dev) (c : W16) (s : Nat) : (d.endCond c s).sys = d.sys := rfl
@[simp] theorem Dev.endCond_pers (d : Dev) (c : W16) (s : Nat) : (d.endCond c s).pers = d.pers := rfl
@[simp] theorem Dev.endCond_port (d : Dev) (c : W16) (s : Nat) : (d.endCond c s).port = d.port := rfl
@[simp] theorem Dev.endCond_win (d : Dev) (c : W16) (s : Nat) : (d.endCond c s).win = d.win := rfl
@[simp] theorem Dev.endCond_rings (d : Dev) (c : W16) (s : Nat) : (d.endCond c s).rings = d.rings := rfl
@[simp] theorem Dev.endCond_line (d : Dev) (c : W16) (s : Nat) : (d.endCond c s).line = d.line := rfl
@[simp] theorem Dev.endCond_heads (d : Dev) (c : W16) (s : Nat) : (d.endCond c s).heads = d.heads := rfl
@[simp] theorem Dev.endCond_taste (d : Dev) (c : W16) (s : Nat) : (d.endCond c s).taste = d.taste := rfl
@[simp] theorem Dev.endCond_axes (d : Dev) (c : W16) (s : Nat) : (d.endCond c s).axes = d.axes := rfl
@[simp] theorem Dev.endCond_mot (d : Dev) (c : W16) (s : Nat) : (d.endCond c s).mot = d.mot := rfl
@[simp] theorem Dev.endCond_sense (d : Dev) (c : W16) (s : Nat) : (d.endCond c s).sense = d.sense := rfl
@[simp] theorem Dev.endCond_media (d : Dev) (c : W16) (s : Nat) : (d.endCond c s).media = d.media := rfl
@[simp] theorem Dev.endCond_sol (d : Dev) (c : W16) (s : Nat) : (d.endCond c s).sol = d.sol := rfl
@[simp] theorem Dev.endCond_solx (d : Dev) (c : W16) (s : Nat) : (d.endCond c s).solx = d.solx := rfl
@[simp] theorem Dev.endCond_uart (d : Dev) (c : W16) (s : Nat) : (d.endCond c s).uart = d.uart := rfl
@[simp] theorem Dev.endCond_cel (d : Dev) (c : W16) (s : Nat) : (d.endCond c s).cel = d.cel := rfl
@[simp] theorem Dev.endCond_age (d : Dev) (c : W16) (s : Nat) : (d.endCond c s).age = d.age := rfl
@[simp] theorem Dev.endCond_link (d : Dev) (c : W16) (s : Nat) : (d.endCond c s).link = d.link := rfl
@[simp] theorem Dev.closeShadow_clk (d : Dev) (w : Disturb) (n : Nat) : (d.closeShadow w n).clk = d.clk := rfl
@[simp] theorem Dev.closeShadow_sys (d : Dev) (w : Disturb) (n : Nat) : (d.closeShadow w n).sys = d.sys := rfl
@[simp] theorem Dev.closeShadow_pers (d : Dev) (w : Disturb) (n : Nat) : (d.closeShadow w n).pers = d.pers := rfl
@[simp] theorem Dev.closeShadow_port (d : Dev) (w : Disturb) (n : Nat) : (d.closeShadow w n).port = d.port := rfl
@[simp] theorem Dev.closeShadow_win (d : Dev) (w : Disturb) (n : Nat) : (d.closeShadow w n).win = d.win := rfl
@[simp] theorem Dev.closeShadow_rings (d : Dev) (w : Disturb) (n : Nat) : (d.closeShadow w n).rings = d.rings := rfl
@[simp] theorem Dev.closeShadow_line (d : Dev) (w : Disturb) (n : Nat) : (d.closeShadow w n).line = d.line := rfl
@[simp] theorem Dev.closeShadow_heads (d : Dev) (w : Disturb) (n : Nat) : (d.closeShadow w n).heads = d.heads := rfl
@[simp] theorem Dev.closeShadow_taste (d : Dev) (w : Disturb) (n : Nat) : (d.closeShadow w n).taste = d.taste := rfl
@[simp] theorem Dev.closeShadow_axes (d : Dev) (w : Disturb) (n : Nat) : (d.closeShadow w n).axes = d.axes := rfl
@[simp] theorem Dev.closeShadow_mot (d : Dev) (w : Disturb) (n : Nat) : (d.closeShadow w n).mot = d.mot := rfl
@[simp] theorem Dev.closeShadow_sense (d : Dev) (w : Disturb) (n : Nat) : (d.closeShadow w n).sense = d.sense := rfl
@[simp] theorem Dev.closeShadow_media (d : Dev) (w : Disturb) (n : Nat) : (d.closeShadow w n).media = d.media := rfl
@[simp] theorem Dev.closeShadow_sol (d : Dev) (w : Disturb) (n : Nat) : (d.closeShadow w n).sol = d.sol := rfl
@[simp] theorem Dev.closeShadow_solx (d : Dev) (w : Disturb) (n : Nat) : (d.closeShadow w n).solx = d.solx := rfl
@[simp] theorem Dev.closeShadow_uart (d : Dev) (w : Disturb) (n : Nat) : (d.closeShadow w n).uart = d.uart := rfl
@[simp] theorem Dev.closeShadow_cel (d : Dev) (w : Disturb) (n : Nat) : (d.closeShadow w n).cel = d.cel := rfl
@[simp] theorem Dev.closeShadow_age (d : Dev) (w : Disturb) (n : Nat) : (d.closeShadow w n).age = d.age := rfl
@[simp] theorem Dev.closeShadow_link (d : Dev) (w : Disturb) (n : Nat) : (d.closeShadow w n).link = d.link := rfl
@[simp] theorem Dev.setHistory_clk (d : Dev) (k : Nat) (l : List Ts) : (d.setHistory k l).clk = d.clk := rfl
@[simp] theorem Dev.setHistory_sys (d : Dev) (k : Nat) (l : List Ts) : (d.setHistory k l).sys = d.sys := rfl
@[simp] theorem Dev.setHistory_pers (d : Dev) (k : Nat) (l : List Ts) : (d.setHistory k l).pers = d.pers := rfl
@[simp] theorem Dev.setHistory_port (d : Dev) (k : Nat) (l : List Ts) : (d.setHistory k l).port = d.port := rfl
@[simp] theorem Dev.setHistory_win (d : Dev) (k : Nat) (l : List Ts) : (d.setHistory k l).win = d.win := rfl
@[simp] theorem Dev.setHistory_rings (d : Dev) (k : Nat) (l : List Ts) : (d.setHistory k l).rings = d.rings := rfl
@[simp] theorem Dev.setHistory_line (d : Dev) (k : Nat) (l : List Ts) : (d.setHistory k l).line = d.line := rfl
@[simp] theorem Dev.setHistory_heads (d : Dev) (k : Nat) (l : List Ts) : (d.setHistory k l).heads = d.heads := rfl
@[simp] theorem Dev.setHistory_taste (d : Dev) (k : Nat) (l : List Ts) : (d.setHistory k l).taste = d.taste := rfl
@[simp] theorem Dev.setHistory_axes (d : Dev) (k : Nat) (l : List Ts) : (d.setHistory k l).axes = d.axes := rfl
@[simp] theorem Dev.setHistory_mot (d : Dev) (k : Nat) (l : List Ts) : (d.setHistory k l).mot = d.mot := rfl
@[simp] theorem Dev.setHistory_sense (d : Dev) (k : Nat) (l : List Ts) : (d.setHistory k l).sense = d.sense := rfl
@[simp] theorem Dev.setHistory_media (d : Dev) (k : Nat) (l : List Ts) : (d.setHistory k l).media = d.media := rfl
@[simp] theorem Dev.setHistory_sol (d : Dev) (k : Nat) (l : List Ts) : (d.setHistory k l).sol = d.sol := rfl
@[simp] theorem Dev.setHistory_solx (d : Dev) (k : Nat) (l : List Ts) : (d.setHistory k l).solx = d.solx := rfl
@[simp] theorem Dev.setHistory_uart (d : Dev) (k : Nat) (l : List Ts) : (d.setHistory k l).uart = d.uart := rfl
@[simp] theorem Dev.setHistory_cel (d : Dev) (k : Nat) (l : List Ts) : (d.setHistory k l).cel = d.cel := rfl
@[simp] theorem Dev.setHistory_age (d : Dev) (k : Nat) (l : List Ts) : (d.setHistory k l).age = d.age := rfl
@[simp] theorem Dev.setHistory_link (d : Dev) (k : Nat) (l : List Ts) : (d.setHistory k l).link = d.link := rfl

/-! The state's three fields -/

@[simp] theorem State.withDev_pending (s : State) (e : Dev) : ({ s with dev := e } : State).pending = s.pending := rfl
@[simp] theorem State.withDev_tap (s : State) (e : Dev) : ({ s with dev := e } : State).tap = s.tap := rfl
@[simp] theorem State.withDev_dev (s : State) (e : Dev) : ({ s with dev := e } : State).dev = e := rfl

end Sys2Proof.Machine
end

