-- ==== Sys2Proof/Laws/Memory.lean ====
section
/-! SUPPORT. The window memory, the cellar's cells and the ageing ledger: every write keeps the canonical form, a read after
a write answers the byte written, and a write leaves every other address alone. The three differ only in the cells that
need no entry, so the lemmas are proved once, over that test. -/

namespace Sys2Proof.Machine

/-! ## One insertion for the three memories -/

/-- Put a byte into cells in rising order, with no cell for a byte that passes the test z. -/
def putBy (z : Nat → Byte → Bool) (m : List Host.Cell) (a : Nat) (v : Byte) : List Host.Cell :=
  match m with
  | [] => if z a v then [] else [(a, v)]
  | (b, w) :: rest =>
    if a < b then (if z a v then (b, w) :: rest else (a, v) :: (b, w) :: rest)
    else if a = b then (if z a v then rest else (a, v) :: rest)
    else (b, w) :: putBy z rest a v

/-- Every listed address lies above an address. -/
def above (a : Nat) : List Host.Cell → Prop
  | [] => True
  | (b, _) :: _ => a < b

/-- Addresses strictly rising, and no cell that passes the test z. -/
def wfBy (z : Nat → Byte → Bool) : List Host.Cell → Prop
  | [] => True
  | (a, v) :: rest => z a v = false ∧ above a rest ∧ wfBy z rest

theorem above_trans {a b : Nat} {m : List Host.Cell} (h : a < b) (hm : above b m) : above a m := by
  match m, hm with
  | [], _ => trivial
  | (c, _) :: _, hc => exact Nat.lt_trans h hc

theorem putBy_above (z : Nat → Byte → Bool) (m : List Host.Cell) (a c : Nat) (v : Byte) (hc : c < a) (h : above c m)
    (hm : wfBy z m) : above c (putBy z m a v) := by
  match m with
  | [] =>
    rw [putBy]; split
    · trivial
    · exact hc
  | (b, w) :: rest =>
    rw [putBy]; split
    · split
      · exact h
      · exact hc
    · split
      · split
        · exact above_trans h hm.2.1
        · exact hc
      · exact h

theorem putBy_wf (z : Nat → Byte → Bool) (a : Nat) (v : Byte) : ∀ m : List Host.Cell, wfBy z m → wfBy z (putBy z m a v)
  | [], _ => by
    rw [putBy]; split
    · trivial
    · exact ⟨by simpa using ‹¬ z a v = true›, trivial, trivial⟩
  | (b, w) :: rest, hm => by
    rw [putBy]; split
    · split
      · exact hm
      · exact ⟨by simpa using ‹¬ z a v = true›, ‹a < b›, hm⟩
    · split
      · rename_i he; subst he
        split
        · exact hm.2.2
        · exact ⟨by simpa using ‹¬ z a v = true›, hm.2.1, hm.2.2⟩
      · exact ⟨hm.1, putBy_above z rest a b v (by omega) hm.2.1 hm.2.2, putBy_wf z a v rest hm.2.2⟩

theorem above_filter (p : Host.Cell → Bool) (z : Nat → Byte → Bool) (a : Nat) :
    ∀ m : List Host.Cell, wfBy z m → above a m → above a (m.filter p)
  | [], _, _ => trivial
  | (b, w) :: rest, hm, h => by
    rw [List.filter_cons]; split
    · exact h
    · exact above_filter p z a rest hm.2.2 (above_trans h hm.2.1)

theorem filter_wf (p : Host.Cell → Bool) (z : Nat → Byte → Bool) : ∀ m : List Host.Cell, wfBy z m → wfBy z (m.filter p)
  | [], _ => trivial
  | (b, w) :: rest, hm => by
    rw [List.filter_cons]; split
    · exact ⟨hm.1, above_filter p z b rest hm.2.2 hm.2.1, filter_wf p z rest hm.2.2⟩
    · exact filter_wf p z rest hm.2.2

/-! ## The window memory -/

/-- The bytes that need no cell of the window memory. -/
def windowZero (a : Nat) (v : Byte) : Bool := knownZero a && v == 0

theorem Memory.put_eq (a : Nat) (v : Byte) : ∀ m, Memory.put m a v = putBy windowZero m a v
  | [] => rfl
  | (b, w) :: rest => by rw [Memory.put, putBy, Memory.put_eq a v rest]; rfl

/-- Every listed address lies in the window. -/
def inside : List Host.Cell → Prop
  | [] => True
  | (a, _) :: rest => a < 0x400000 ∧ inside rest

theorem Memory.wf_iff : ∀ m, Memory.wf m = true ↔ wfBy windowZero m ∧ inside m
  | [] => by simp [Memory.wf, wfBy, inside]
  | [(a, v)] => by cases h : knownZero a <;> simp [Memory.wf, wfBy, inside, above, windowZero, h, and_comm]
  | (a, v) :: (b, w) :: rest => by
    rw [Memory.wf, wfBy, inside]
    simp only [Bool.and_eq_true, Memory.wf_iff ((b, w) :: rest), above, decide_eq_true_eq, Bool.not_eq_true', windowZero]
    constructor
    · exact fun ⟨⟨⟨h1, h2⟩, h3⟩, h4, h5⟩ => ⟨⟨h2, h3, h4⟩, h1, h5⟩
    · exact fun ⟨⟨h2, h3, h4⟩, h1, h5⟩ => ⟨⟨⟨h1, h2⟩, h3⟩, h4, h5⟩

theorem inside_putBy (z : Nat → Byte → Bool) (a : Nat) (v : Byte) (ha : a < 0x400000) : ∀ m, inside m → inside (putBy z m a v)
  | [], _ => by
    rw [putBy]; split
    · trivial
    · exact ⟨ha, trivial⟩
  | (b, w) :: rest, hm => by
    rw [putBy]; split
    · split
      · exact hm
      · exact ⟨ha, hm⟩
    · split
      · split
        · exact hm.2
        · exact ⟨ha, hm.2⟩
      · exact ⟨hm.1, inside_putBy z a v ha rest hm.2⟩

/-- A byte inside the window put into a memory in canonical form leaves it in canonical form. -/
theorem Memory.wf_put (m : List Host.Cell) (a : Nat) (v : Byte) (ha : a < 0x400000) (hm : Memory.wf m = true) :
    Memory.wf (Memory.put m a v) = true := by
  rw [Memory.wf_iff] at *
  rw [Memory.put_eq]
  exact ⟨putBy_wf _ a v m hm.1, inside_putBy _ a v ha m hm.2⟩

theorem Memory.wf_putAll : ∀ (vs : List Byte) (m : List Host.Cell) (a : Nat), a + vs.length ≤ 0x400000 →
    Memory.wf m = true → Memory.wf (Memory.putAll m a vs) = true
  | [], _, _, _, h => h
  | v :: vs, m, a, hl, h => by
    rw [List.length_cons] at hl
    exact Memory.wf_putAll vs _ _ (by omega) (Memory.wf_put m a v (by omega) h)

/-- Every write of the device into its window keeps the canonical form. -/
theorem Dev.poke_wf (d : Dev) (a : Nat) (vs : List Byte) (h : Memory.wf d.win.mem = true) :
    Memory.wf (d.poke a vs).win.mem = true := by
  unfold Dev.poke
  split
  · exact Memory.wf_putAll vs d.win.mem a (by assumption) h
  · exact h

theorem Dev.handBack_win (d : Dev) (a : Nat) : (d.handBack a).win = (d.poke a [0]).win := by
  unfold Dev.handBack Dev.noteChange; split <;> rfl

theorem Dev.handBack_wf (d : Dev) (a : Nat) (h : Memory.wf d.win.mem = true) : Memory.wf (d.handBack a).win.mem = true := by
  rw [Dev.handBack_win]; exact d.poke_wf a [0] h

theorem reset_memory_wf : Memory.wf State.reset.dev.win.mem = true := rfl

/-! ## Read after write -/

theorem Memory.find_above (m : List Host.Cell) (a : Nat) (h : above a m) : Memory.find m a = none := by
  match m, h with
  | [], _ => rfl
  | (b, w) :: rest, hb =>
    have h1 : a < b := hb
    rw [Memory.find, if_neg (by omega), if_pos h1]

theorem Memory.find_putBy_ne (z : Nat → Byte → Bool) (a c : Nat) (v : Byte) (h : c ≠ a) :
    ∀ m, wfBy z m → Memory.find (putBy z m a v) c = Memory.find m c
  | [], _ => by rw [putBy]; split <;> simp [Memory.find, h]
  | (b, w) :: rest, hm => by
    rw [putBy]; split
    · rename_i hlt
      split
      · rfl
      · by_cases hc : c < a
        · have h1 : c ≠ b := by omega
          have h2 : c < b := by omega
          simp [Memory.find, h, hc, h1, h2]
        · simp [Memory.find, h, hc]
    · split
      · rename_i he; subst he
        by_cases hc : c < a
        · have := Memory.find_above rest c (above_trans hc hm.2.1)
          split <;> simp [Memory.find, h, hc, this]
        · split <;> simp [Memory.find, h, hc]
      · simp only [Memory.find, Memory.find_putBy_ne z a c v h rest hm.2.2]

theorem Memory.find_putBy_self (z : Nat → Byte → Bool) (a : Nat) (v : Byte) :
    ∀ m, wfBy z m → Memory.find (putBy z m a v) a = if z a v then none else some v
  | [], _ => by rw [putBy]; split <;> simp [Memory.find]
  | (b, w) :: rest, hm => by
    rw [putBy]; split
    · rename_i hlt
      have h1 : a ≠ b := by omega
      split <;> simp [Memory.find, h1, hlt]
    · split
      · rename_i he; subst he
        split
        · exact Memory.find_above rest a hm.2.1
        · simp [Memory.find]
      · rename_i h1 h2
        simp only [Memory.find, if_neg h2, if_neg h1]
        exact Memory.find_putBy_self z a v rest hm.2.2

theorem Dev.poke1_mem (d : Dev) (a : Nat) (v : Byte) (ha : a < 0x400000) :
    (d.poke a [v]).win.mem = putBy windowZero d.win.mem a v := by
  unfold Dev.poke
  rw [if_pos (by simp; omega), ← Memory.put_eq]
  rfl

theorem Dev.poke_epoch (d : Dev) (a : Nat) (vs : List Byte) : (d.poke a vs).win.epoch = d.win.epoch := by
  unfold Dev.poke; split <;> rfl

/-- A byte written into the window reads back. -/
theorem Dev.ram_poke_self (d : Dev) (a : Nat) (v : Byte) (ha : a < 0x400000) (hm : Memory.wf d.win.mem = true) :
    (d.poke a [v]).ram a = v := by
  unfold Dev.ram
  rw [Dev.poke1_mem d a v ha, Dev.poke_epoch, Memory.find_putBy_self _ a v _ ((Memory.wf_iff _).mp hm).1]
  cases hz : windowZero a v with
  | false => simp
  | true =>
    simp only [windowZero, Bool.and_eq_true, beq_iff_eq] at hz
    simp [hz.1, hz.2]

/-- Every other byte of the window reads as before. -/
theorem Dev.ram_poke_ne (d : Dev) (a c : Nat) (v : Byte) (h : c ≠ a) (hm : Memory.wf d.win.mem = true) :
    (d.poke a [v]).ram c = d.ram c := by
  by_cases ha : a < 0x400000
  · unfold Dev.ram
    rw [Dev.poke1_mem d a v ha, Dev.poke_epoch, Memory.find_putBy_ne _ a c v h _ ((Memory.wf_iff _).mp hm).1]
  · have : d.poke a [v] = d := by unfold Dev.poke; rw [if_neg (by simp; omega)]
    rw [this]

/-! ## The cellar's cells -/

/-- The bytes that need no cell of the cellar. -/
def erasedByte (_ : Nat) (v : Byte) : Bool := decide (v = 0xFF)

theorem cellPut_eq (a : Nat) (v : Byte) : ∀ m, cellPut m a v = putBy erasedByte m a v
  | [] => by simp [cellPut, putBy, erasedByte]
  | (b, w) :: rest => by rw [cellPut, putBy, cellPut_eq a v rest]; simp [erasedByte]

theorem cellPutAll_wf : ∀ (vs : List Byte) (m : List Host.Cell) (a : Nat), wfBy erasedByte m → wfBy erasedByte (cellPutAll m a vs)
  | [], _, _, h => h
  | v :: vs, m, a, h => cellPutAll_wf vs _ _ (by rw [cellPut_eq]; exact putBy_wf _ a v m h)

/-- Programming a sector keeps the form of the cellar's cells. -/
theorem Cellar.program_wf (c : Cellar) (n : Nat) (bs : List Byte) (h : wfBy erasedByte c.cells) :
    wfBy erasedByte (c.program n bs).cells := cellPutAll_wf _ _ _ h

/-- Erasing a sector keeps the form of the cellar's cells. -/
theorem Cellar.erase_wf (c : Cellar) (n : Nat) (h : wfBy erasedByte c.cells) : wfBy erasedByte (c.erase n).cells :=
  filter_wf _ _ _ h

/-! ## The ageing ledger -/

/-- The bytes that need no cell of the ledger. -/
def ledgerZero (_ : Nat) (v : Byte) : Bool := decide (v = 0)

theorem ledgerPut1_eq (a : Nat) (v : Byte) : ∀ m, ledgerPut1 m a v = putBy ledgerZero m a v
  | [] => by simp [ledgerPut1, putBy, ledgerZero]
  | (b, w) :: rest => by rw [ledgerPut1, putBy, ledgerPut1_eq a v rest]; simp [ledgerZero]

theorem ledgerPutAll_wf : ∀ (vs : List Byte) (m : List Host.Cell) (a : Nat), wfBy ledgerZero m → wfBy ledgerZero (ledgerPutAll m a vs)
  | [], _, _, h => h
  | v :: vs, m, a, h => ledgerPutAll_wf vs _ _ (by rw [ledgerPut1_eq]; exact putBy_wf _ a v m h)

/-- Every write of a ledger field keeps the form of the ledger. -/
theorem Dev.ledSet_wf (d : Dev) (a n v : Nat) (h : wfBy ledgerZero d.age.ledger) : wfBy ledgerZero (d.ledSet a n v).age.ledger :=
  ledgerPutAll_wf _ _ _ h

theorem Dev.ledAdd_wf (d : Dev) (a n v : Nat) (h : wfBy ledgerZero d.age.ledger) : wfBy ledgerZero (d.ledAdd a n v).age.ledger :=
  Dev.ledSet_wf d a n _ h

end Sys2Proof.Machine
end

