-- ==== Sys2Proof/Laws/Ops.lean ====
section
/-! SUPPORT. What the shared operations can do, one lemma each: FAULT_N's release, the end of a command, a record that is made,
a link frame that is received, a run of steps. -/

namespace Sys2Proof.Machine

/-! FAULT_N -/

/-- The release of FAULT_N changes nothing, or raises a line that was low. -/
theorem Dev.faultRelease_cases (d : Dev) :
    d.faultRelease = d ∨ (d.sys.faultN = false ∧ d.rings.openFaults = [] ∧ d.sys.early = [] ∧ d.operating = true ∧
      d.past d.sys.faultNTs (10 * us) = true ∧ d.faultRelease = { d with sys.faultN := true }) := by
  unfold Dev.faultRelease
  split
  · next h =>
    simp only [Bool.and_eq_true, Bool.not_eq_true', List.isEmpty_iff] at h
    exact .inr ⟨h.1.1.1.1, h.1.1.2, h.1.2, h.1.1.1.2, h.2, rfl⟩
  · exact .inl rfl

/-- The release of FAULT_N changes the line alone. -/
theorem Dev.faultRelease_eq (d : Dev) : ∃ f, d.faultRelease = { d with sys.faultN := f } ∧ (d.sys.faultN = true → f = true) := by
  rcases d.faultRelease_cases with h | ⟨_, _, _, _, _, h⟩
  · exact ⟨d.sys.faultN, h, id⟩
  · exact ⟨true, h, fun _ => rfl⟩

/-- A released line stands as it is. -/
theorem Dev.faultRelease_high (d : Dev) (h : d.sys.faultN = true) : d.faultRelease = d := by
  simp [Dev.faultRelease, h]

/-- Every command ends with the release of FAULT_N. -/
theorem Dev.finish_release (d : Dev) : ∃ e : Dev, d.finish = e.faultRelease := by
  unfold Dev.finish
  dsimp only
  split
  all_goals
    split
    · exact ⟨_, rfl⟩
    · exact ⟨_, rfl⟩

/-! Half-bridges -/

theorem Dev.settleBridge_of_follows (d : Dev) (x : Fin 4) (b : Bool) (h : ((d.axes.get x).wind b).bridge = d.wantBridge x b) :
    d.settleBridge x b = d := by
  simp [Dev.settleBridge, h]

/-- Half-bridges that do what they are to do stay so. -/
theorem Dev.settleBridges_of_follow (d : Dev) (h : ∀ x b, ((d.axes.get x).wind b).bridge = d.wantBridge x b) : d.settleBridges = d := by
  simp [Dev.settleBridges, Dev.each4, fin4, Dev.settleBridge_of_follows, h _ _]

/-- The half-bridges' change is one of the axes alone. -/
theorem Dev.settleBridge_frame (d : Dev) (x : Fin 4) (b : Bool) : ∃ a, d.settleBridge x b = { d with axes := a } := by
  unfold Dev.settleBridge
  dsimp only
  split
  · exact ⟨d.axes, rfl⟩
  · exact ⟨_, rfl⟩

theorem Dev.settleBridges_frame (d : Dev) : ∃ a, d.settleBridges = { d with axes := a } := by
  have one (x : Fin 4) (d : Dev) : ∃ a, (d.settleBridge x false).settleBridge x true = { d with axes := a } := by
    obtain ⟨a, h⟩ := d.settleBridge_frame x false
    rw [h]
    exact Dev.settleBridge_frame _ x true
  simp only [Dev.settleBridges, Dev.each4, fin4, List.foldl]
  obtain ⟨_, h⟩ := one 0 d; rw [h]
  obtain ⟨_, h⟩ := one 1 _; rw [h]
  obtain ⟨_, h⟩ := one 2 _; rw [h]
  exact one 3 _

/-- Before READY a command ends with nothing else, at a chip whose link runs or is not aligned. -/
theorem Dev.finish_early (d : Dev) (h : d.sys.ready = false) (hl : d.clk.linkRun = true ∨ d.link.aligned = false) :
    d.finish = d.settleBridges.faultRelease := by
  have : (d.clk.linkRun || !d.link.aligned) = true := by rcases hl with h | h <;> simp [h]
  simp [Dev.finish, this, h]

/-! Status records -/

/-- A record that may be dropped and finds the unreserved part of the queue full is counted as lost, any other is made under
the next status sequence. -/
theorem Dev.make_cases (d : Dev) (k : Keep) (ty flags mask : Nat) (tag : W32) (code : W16) (ts tick : Ts) (body : List Byte) :
    (k = .drop ∧ 128 ≤ d.rings.unreserved ∧ (d.make k ty flags mask tag code ts tick body).1 = 0 ∧
      (d.make k ty flags mask tag code ts tick body).2.rings.statusSeq = d.rings.statusSeq) ∨
    ((d.make k ty flags mask tag code ts tick body).1 = d.rings.statusSeq ∧
      (d.make k ty flags mask tag code ts tick body).2.rings.statusSeq = nextStatusSeq d.rings.statusSeq) := by
  unfold Dev.make
  split
  · next h =>
    simp only [Bool.and_eq_true, decide_eq_true_eq, beq_iff_eq] at h
    exact .inl ⟨h.1, h.2, rfl, rfl⟩
  · exact .inr ⟨rfl, rfl⟩

/-- A record that is made changes the rings and the check word of the link, nothing else. -/
theorem Dev.make_frame (d : Dev) (k : Keep) (ty flags mask : Nat) (tag : W32) (code : W16) (ts tick : Ts) (body : List Byte) :
    { (d.make k ty flags mask tag code ts tick body).2 with rings := d.rings, link := d.link } = d := by
  unfold Dev.make
  split <;> rfl

/-- A frame that goes out changes the link alone. -/
theorem Dev.sendFrame_frame (d : Dev) (ty dst low : Nat) (p : List Byte) : { d.sendFrame ty dst low p with link := d.link } = d := by
  unfold Dev.sendFrame
  split <;> rfl

/-! The link -/

/-- A chip that is not on a running, aligned ring takes no frame, nor one of another type. -/
theorem Dev.linkIn_none (d : Dev) (ty : Nat) (f : LinkFrame) (act : List Byte → Dev → Dev)
    (h : d.linkLive = false ∨ d.link.aligned = false ∨ le f.bytes 0 1 ≠ ty) :
    d.linkIn ty f act = d := by
  unfold Dev.linkIn
  rcases h with h | h | h <;> simp [h]

/-! Commands -/

/-- On an empty queue a step is one idle period. -/
theorem step_nil (s : State) (h : s.pending = []) : step s = .next { s with dev := clkinPeriod s.dev } := by
  unfold step
  rw [h]

/-- An idle period without CLKIN changes nothing. -/
theorem clkinPeriod_absent (d : Dev) (h : d.clk.clkinOk = false) : clkinPeriod d = d := by
  simp [clkinPeriod, h]

/-- An edge of TCK changes the test logic, and of the device at most the count of free values. -/
theorem tckEdge_dev (r m i n : Bool) (c : List Bool) (s : State) :
    (tckEdge r m i n c s).pending = s.pending ∧
      { (tckEdge r m i n c s).dev with sys := s.dev.sys } = s.dev := by
  unfold tckEdge
  split
  · exact ⟨rfl, rfl⟩
  · split
    · exact ⟨rfl, rfl⟩
    · split
      · exact ⟨rfl, rfl⟩
      · exact ⟨rfl, rfl⟩

end Sys2Proof.Machine
end

