-- ==== Sys2Proof/WellFormed.lean ====
section
/-! DEFINITION. Which operands the outside can supply at all: the checks that no command of the manual's
device breaks. The meanings are total; they do not rest on these checks. -/

namespace Sys2Proof

/-- A sum of 16 twelve-bit conversions (R289). -/
def sumsOk (s : Quad (BitVec 16)) : Bool := s.toList.all fun v => decide (v.toNat ≤ 16 * 4095)

/-- A link frame has at most 8 bytes of header, 52 of payload and 4 of check word (R567). -/
def LinkFrame.wf (f : LinkFrame) : Bool := decide (f.bytes.length ≤ 64)

/-- A character has 10 or 11 bits, and an edge is latched from sample 6 of its last stop bit on (R444, R446). -/
def UBits.wf (c : UBits) : Bool :=
  (c.bits.length == 10 || c.bits.length == 11) && (match c.edge with | none => true | some n => decide (6 ≤ n.toNat))

/-- A frame or unit holds at most the 128 data bytes of R452 and its fixed characters. -/
def ULine.wf (f : ULine) : Bool := decide (f.chars.length ≤ 134) && f.chars.all UBits.wf

/-- Two results that differ name two slices, and the odd one out is one of them (R242). -/
def CrossCheck.wf : CrossCheck → Bool
  | .agree => true
  | .differ x y w => x != y && (w == x || w == y)

/-- The command's operands are such as the outside can supply. -/
def Instr.wf : Instr → Bool
  | .setPinMeasure codes sense =>
      codes.length == 12 && codes.all (·.length == 8) && sense.length == 8 && sense.all (·.length == 4)
  | .headCardReadDone _ image => (image.getD []).length ≤ 576
  | .xspiRead _ caDone words => caDone || words == 0
  | .xspiWrite _ caDone data => caDone || data.isEmpty
  | .streamStrayChar c => c.wf
  | .pressLineComplete cmp => cmp.wf
  | .tasteSetupDone sums => sumsOk sums
  | .tasteDotDone sums reopen => sumsOk sums && sumsOk (reopen.getD (Quad.all 0))
  | .uartWriteFrame f | .uartPoll f | .streamWriteUnit f | .streamPollUnit f | .uartTimeout f _ => f.wf
  | .tickFrame f | .planFrame f | .eventFrame f | .echoFrame f | .writeFrame f | .syncFrame f | .cellarFrame f => f.wf
  | .powerOnReset | .resetN | .strapRound _ _ | .pllLock | .cardImageTimeout | .vintageSelectionDone
  | .pressSelfTestDone _ _ | .readyRise _ _ | .jobSlotExamine | .note | .band | .feed | .backfeed | .seekMark
  | .cut | .solenoid | .adoptProfile | .learnMedia | .tasteHead | .barrier | .profileSectionHandover _
  | .sectionRelease _ | .blockCheck | .statusWrite | .gaugeFrameWrite | .lineTick _ | .sampleSetComplete _
  | .sliceParityError _ | .planeShiftStart _ | .slotTransfer _ | .phaseBoundary | .strobeGuard _ _
  | .strobeStuck _ _ | .headOvertempHard _ | .hardLimitRecheck _ _ | .vhLowRecheck _ _ | .vhHigh _ _
  | .headOpen _ _ _ | .headOpenClear _ _ | .motorStep _ | .onShareWindow _ | .tasteReleaseDone | .startSampleSetDone _ | .bandResume | .encoderCount _
  | .tickStalled | .mediaRest | .axisRelease _ | .chopperPhaseEnd _ _ | .axisOvercurrent _ _ _ | .aencCount _
  | .dcBrakeEnd | .dcJamCheck | .yankCheck | .sensorRound _ | .paperOutClear | .coverOpen _ _ | .coverClear _
  | .learnRangeEnd | .cutterJam | .pulseStart _ | .solenoidDeadline _ | .adcbSample _ _ | .peakEnd _ | .holdEnd _
  | .channelOff _ | .coilModelUpdate | .coilOpen _ | .coilShortSupply _ _ | .coilIdleTest _ | .boostOvervolt _
  | .uartBreak _ | .xon | .xoff | .uartReply | .corkPulse _ _ | .cellarEraseDone _
  | .cellarProgramDone _ | .storeComplete | .storeResume | .storeStarved | .cellarReadDone | .pllUnlock
  | .pllRelockTimeout | .rampStep _ | .clkForced _ | .clkinLost | .clkinRestored | .seqWatchdog _ _
  | .firingHoldEnd _ _ | .portReset _ | .reactionEnd _ | .delayMonitor _ | .sleepRequest | .dozeEntry
  | .dormantEntry | .wake _ | .linkAligned | .syncSend | .linkFrameResend | .linkDown _ | .linkUp | .notJoined
  | .positionLost _ | .tickSkew | .noPartner | .twinWriteApply | .takeover | .vhioBankDetector _
  | .testPortTckEdge _ _ _ _ _ => true

end Sys2Proof
end

