-- ==== Sys2Proof/Tests/Slice0.lean ====
section
/-! SUPPORT. Small tests: ill-formed operands, worked examples of the manual, a few single steps, and for every statement with
hypotheses a device and operands that meet them (witness_ and the statement's name, a conjunct for each clause). Expected
values come from the manual's text, as each comment says. -/

open Sys2Proof Sys2Proof.Machine

namespace Sys2Proof.Tests

set_option Elab.async false

/-! ## Well-formed operands -/

theorem test_wf_setPinMeasure : Instr.wf (.setPinMeasure [] []) = false := by decide
theorem test_wf_headCard : Instr.wf (.headCardReadDone 0 (some (List.replicate 577 0))) = false := by decide +kernel
theorem test_wf_xspiRead : Instr.wf (.xspiRead 0 false 1) = false := by decide
theorem test_wf_xspiWrite : Instr.wf (.xspiWrite 0 false [(0, false)]) = false := by decide
theorem test_wf_pressLine : Instr.wf (.pressLineComplete (.differ 0 1 2)) = false := by decide
theorem test_wf_tasteSetup : Instr.wf (.tasteSetupDone ⟨65521, 0, 0, 0⟩) = false := by decide
theorem test_wf_tasteDot : Instr.wf (.tasteDotDone (Quad.all 0) (some ⟨0, 0, 65521, 0⟩)) = false := by decide
theorem test_wf_char : Instr.wf (.streamStrayChar ⟨List.replicate 9 0, none⟩) = false ∧
    Instr.wf (.streamStrayChar ⟨List.replicate 10 0, some 5⟩) = false := by decide
theorem test_wf_frame : Instr.wf (.uartPoll ⟨List.replicate 135 ⟨List.replicate 10 0, none⟩, []⟩) = false := by decide +kernel
theorem test_wf_link : Instr.wf (.tickFrame ⟨List.replicate 65 0, true⟩) = false := by decide +kernel

/-! ## Worked examples of the manual -/

/-- 02: a SET10 reading of code 246 is bin 6 without MARGIN. -/
theorem test_set_246 : setStateOf 246 = 6 ∧ setMargin 246 = false := by decide +kernel

/-- R83: the command-address 0x2008_5500_0000 is byte address 0x0085_5000. -/
theorem test_ca : caAddr 0x200855000000#48 = 0x855000 := by decide

/-- 12: protected identifier 0x92 of identifier 0x12. -/
theorem test_pid : pidOf 0x12 = 0x92#8 := by decide

/-- 06: K_m and K_sh at 500 and at 4,095, by hand from R225. -/
theorem test_kPair : kPair 500 = (3276, 15) ∧ kPair 4095 = (3126, 21) := by decide

/-- R253: a 4,096-dot head on 16 lanes at 50 MHz shifts in 256 units; 576 dots on one lane at 12 MHz under 1 % in 2,449. -/
theorem test_tShift :
    Dev.tShift { pers := { float := 0x1000, ports := Quad.all { dots := 4096, lanes := 16, maxClk := 50 } } } 0 = 256 ∧
    Dev.tShift { pers := { high := 0x1000, ports := Quad.all { dots := 576, lanes := 1, maxClk := 12 } } } 0 = 2449 := by decide +kernel

/-- R217, R218: a retention of 4,096 keeps a state; 2,048 halves it, rounding half up. -/
theorem test_decayed : decayed 4096 777 = 777 ∧ decayed 2048 777 = 389 := by decide

/-- 09: the DAC codes of the worked microstep, 296 for winding A and 122 for winding B at run_level 204. -/
theorem test_dac : 400 * 204 * sineOf 48 / 65025 = 296 ∧ 400 * 204 * sineOf (48 - 64) / 65025 = 122 := by decide

/-- R47: HIGH, HIGH, LOW is HIGH; LOW, FLOAT, HIGH is undecided. -/
theorem test_straps :
    (Pers.decideStraps {} [(1, 1), (1, 1), (0, 0)]).high.getLsbD 0 = true ∧
    (Pers.decideStraps {} [(0, 0), (1, 0), (1, 1)]).undecided.getLsbD 0 = true := by decide

/-- The slot plan of 06's examples. -/
def pressPlan : Plan :=
  { s := 8, carryShift := 1, subShift := 4, lateral := 32, heatGain := 1024, subGain := 240, rDefault := 1600, xAct := 2400, tRef := 200
    dur := [1600, 800, 400, 200, 200, 100, 100, 50], greedy := [0, 1, 2, 3, 4, 5, 6, 7], mask := [0xFF, 0xFE, 0, 0] }

/-- The figures of 06's examples at a supply and a thermistor reading. -/
def pressFigs (v : Nat) (th : Int) : PortFigs :=
  { plan := pressPlan, ceil := 720, q := 873, km := (kPair v).1, ksh := (kPair v).2, thx := 2 * (th - 200), rNom := 1600 }

/-- 06, a black bar after a long pause: dot 350 of lines 1 and 2. -/
theorem test_press_bar :
    (let o := dotUpdate (pressFigs 2400 240) (mkWord 0 0 1600) 0 0 0 0 0 480 0
     o.sel = 0x1F ∧ o.ea = 460 ∧ wState o.word = 1840 ∧ wCarry o.word = 11) ∧
    (let o := dotUpdate (pressFigs 2400 240) (mkWord 1840 11 1600) 11 580 580 580 107 480 0
     o.sel = 0x83 ∧ o.ea = 353 ∧ wState o.word = 1992 ∧ wCarry o.word = -10) := by decide +kernel

/-- 06, a 50 % tint: the cold head and the hot head. -/
theorem test_press_tint :
    (let o := dotUpdate (pressFigs 2400 96) (mkWord 1600 6 1600) 6 574 574 574 320 260 1
     o.sel = 0x1E ∧ o.ea = 230 ∧ wState o.word = 1494 ∧ wCarry o.word = -37) ∧
    (let o := dotUpdate (pressFigs 2350 416) (mkWord 1600 (-8) 1600) (-8) 574 574 574 1920 260 1
     o.sel = 0x0A ∧ o.ea = 138 ∧ wState o.word = 1126 ∧ wCarry o.word = -8) := by decide +kernel

/-- 12: the checksums of the owner frame and of its reply. -/
theorem test_checksums : checksum [0x92, 0x01, 0x40, 0x01, 0x01, 0xD1] = 0x58 ∧ checksum [0x92, 0x00] = 0x6D := by decide

/-- 05: the detail of a zero dot_count in the third segment word of port 1's map. -/
theorem test_secDetail : secDetail 25 0x28 = 0xDA28 := by decide

/-- 07, stagger on a one-lane head: groups 0 and 2 in the first phase, group 1 in the second. -/
theorem test_stagger : (phasesOf 8000 (fun _ => 512) 3 [⟨0, 0, 100, 3000⟩, ⟨0, 1, 192, 5760⟩, ⟨0, 2, 80, 2400⟩]).map (·.map (·.g)) = [[0, 2], [1]] := by
  decide

/-- 10, samples around a label gap: the leading edge at 64,006 and the trailing one at 65,541. -/
theorem test_gap :
    (let t := [(64004, 1480), (64008, 2260), (64012, 2790)].foldl (fun (t : Track) x => (t.next 1 1950 262 2 x.1 x.2).1) ⟨false, 0, 64000, 1020, 0⟩
     t.space = true ∧ t.cross = 64006) ∧
    (let t := [(65540, 2050), (65544, 1300), (65548, 950)].foldl (fun (t : Track) x => (t.next 1 1950 262 2 x.1 x.2).1) ⟨true, 0, 65536, 2900, 0⟩
     t.space = false ∧ t.cross = 65541) := by decide +kernel

/-! ## Devices -/

/-- A device in run, awake and alone, every domain on the PLL, 40 ms after the timestamp's zero. -/
def up : Dev := {
  clk := { now := 1000000, locked := true, core := ⟨.pll, 32, 0, 0, 8, .pll⟩, motion := ⟨.pll, 128, 0, 0, 8, .pll⟩
           adc := ⟨.pll, 256, 0, 0, 8, .pll⟩, headRun := true, linkRun := true }
  sys := { phase := .run, ready := true }
  pers := { strapsDone := true, valid := true, ports := ⟨{ active := true, dots := 64, lanes := 1, strobes := 1 }, {}, {}, {}⟩ }
  link := { driving := true } }

/-- The device with straps. -/
def strapped (high : BitVec 16) : Dev := { up with pers := { up.pers with high := high } }

/-- A state with nothing queued. -/
def at_ (d : Dev) : State := { pending := [], dev := d, tap := {} }

/-- A job record of 64 bytes with a type and a sequence. -/
def rec_ (ty seq : Byte) : List Byte := [0xD1, ty, 0, 0, 0, 0, 0, 0, seq] ++ zeros 55

/-- A record with its check word. -/
def sealedRec (ty seq : Byte) : List Byte := (rec_ ty seq).take 60 ++ leBytes 4 (recordCrc 0xD1 (rec_ ty seq)).toNat

/-- A device whose window holds some bytes. -/
def holding (a : Nat) (bs : List Byte) (d : Dev) : Dev := d.poke a bs

theorem test_up : Dev.operating up = true ∧ Dev.awake up = true ∧ Dev.alive up = true ∧ Dev.onRing up = false := by decide +kernel

/-- The device at rest is one at which nothing is under way. -/
theorem witness_QuietDeviceFinishesAtOnce : Quiet up := by
  constructor <;> first | exact .inl rfl | rfl | decide +kernel

/-! ## Steps -/

/-- R501: an idle period counts the timestamp by one. -/
theorem test_idle : (match step (at_ up) with | .next t => t.dev.clk.now | _ => 0) = 1000001 := by decide +kernel

/-- R516: after POWER_ON_RESET the timestamp is zero and FAULT_N high. -/
theorem test_powerOn : (match exec .powerOnReset (at_ up) with | .next t => (t.dev.clk.now, t.dev.sys.faultN, t.dev.sys.ready) | _ => (1, false, true)) =
    (0, true, false) := by decide +kernel

/-- R102: a byte of a host write lands in a host-owned block of the pool, the masked one does not, and the write is counted. -/
theorem test_xspiWrite : (match exec (.xspiWrite 0x200030000001#48 true [(0x5A, false), (0xA5, true)]) (at_ up) with
    | .next t => (Memory.find t.dev.win.mem 0x30002, Memory.find t.dev.win.mem 0x30003, t.dev.port.writeCount) | _ => (none, none, 0)) =
    (some 0x5A, none, 1) := by decide +kernel

/-- The front of the queue runs, the rest waits. -/
theorem test_queue : (match step { at_ up with pending := [.uartBreak 4800, .xon] } with | .next t => t.pending | _ => []) = [.xon] := by decide +kernel

/-! ## Devices that meet the statements' hypotheses -/

theorem witness_IdleStepIsOneClkinPeriod :
    (at_ { up with clk.clkinOk := false }).pending = [] ∧ (at_ { up with clk.clkinOk := false }).dev.clk.clkinOk = false ∧
    (at_ up).pending = [] ∧ (at_ up).dev.clk.clkinOk = true := by decide +kernel

theorem witness_TimePassesWhileIdle :
    ((at_ up).pending = [] ∧ (at_ up).dev.clk.clkinOk = true ∧ (at_ up).dev.sys.sleep ≠ .dormant) ∧
    ((at_ { up with sys.sleep := .dormant }).dev.clk.clkinOk = true ∧ (at_ { up with sys.sleep := .dormant }).dev.sys.sleep = .dormant) := by
  decide +kernel

theorem witness_QueueIsFirstInFirstOut : ({ at_ up with pending := [.uartBreak 4800, .xon] } : State).pending = [.uartBreak 4800, .xon] := rfl

theorem witness_FaultLineNeverHangs : ¬ FaultHangs (at_ { up with rings.openFaults := [5], sys.faultN := false }).dev ∧
    ∃ t, step { at_ { up with rings.openFaults := [5], sys.faultN := false } with pending := [.xon] } = .next t :=
  ⟨fun h => absurd h.2.2.1 (by decide), _, rfl⟩

theorem witness_TestLogicStaysApart : (∃ t, exec .xon (at_ up) = .next t) ∧
    ∀ c ∈ ({ at_ up with pending := [.xon, .note] } : State).pending, ∀ r m i k l, c ≠ .testPortTckEdge r m i k l := by
  refine ⟨⟨_, rfl⟩, fun c h r m i k l e => ?_⟩
  subst e
  simp at h

theorem witness_QuietCommandsLeaveTheWindow : Quiet (at_ up).dev ∧ (∃ t, exec (.axisRelease 3) (at_ up) = .next t) :=
  ⟨witness_QuietDeviceFinishesAtOnce, _, rfl⟩

/-- A device in its reset sequence. -/
def booting (ph : Phase) : Dev := { up with sys := { phase := ph }, pers := { strapsDone := true } }

/-- Codes of twelve SET pins, one code for all. -/
def pins (code : Adc) : List (List Adc) := List.replicate 12 (List.replicate 8 code)

/-- Conversions of the eight sense pins. -/
def senses : List (List Adc) := List.replicate 8 (List.replicate 4 4000)

/-- The device after SET_PIN_MEASURE's decoding, before the personality is judged. -/
def decoded (codes : List (List Adc)) : Dev :=
  let d := { booting .settling with pers := { (booting .settling).pers with
    sets := (List.range 12).map fun i => setPinOf (codes.getD i []), sources := false, setsDone := true } }
  { d with pers := { d.pers with
      axisCfg := d.pers.axisCfg.mapIdx fun x _ => axisCode d.noMotion (x.val == 3) (senseOf (senses.getD (2 * x.val) [])) (senseOf (senses.getD (2 * x.val + 1) []))
      senseRaw := (List.range 8).map fun i => BitVec.ofNat 12 (meanCode (senses.getD i [])) } }

theorem witness_StrapsAndSetPinsAnswer :
    ((booting .straps).sys.phase = .straps ∧ (booting .straps).clk.clkinOk = true ∧ (booting .straps).pers.rounds.length < 2) ∧
    2 ≤ ({ booting .straps with pers.rounds := [(1, 1), (1, 0)] } : Dev).pers.rounds.length ∧
    ((booting .settling).sys.phase = .settling ∧ (booting .settling).clk.clkinOk = true ∧ (booting .settling).clk.locked = true) ∧
    (decoded (pins 0)).persFault = some (4, 0x1A) ∧ (decoded (pins 246)).persFault = none := by decide +kernel

theorem witness_StrapLevelIsTheMajority : (0 : Nat) < 16 ∧ (15 : Nat) < 16 ∧
    2 ≤ strapVotes (0x8000, 0x8000) (0x8000, 0) (0x8000, 0x8000) 15 .high ∧ 2 ≤ strapVotes (1, 0) (0, 0) (1, 0) 0 .float ∧
    (strapVotes (0, 0) (1, 1) (1, 0) 0 .low < 2 ∧ strapVotes (0, 0) (1, 1) (1, 0) 0 .high < 2 ∧ strapVotes (0, 0) (1, 1) (1, 0) 0 .float < 2) := by
  decide

/-- A twin secondary, straps alone. -/
def second : Dev := strapped 0x0008

theorem witness_SequenceToReadyAnswers :
    (let d : Dev := { booting .cards with pers.sets := List.replicate 12 { state := 17 } }
     d.clk.clkinOk = true ∧ d.sys.phase = .cards ∧ d.role ≠ 2 ∧ d.readsCard 0 = true ∧ (d.pers.cards.get 0).read = false) ∧
    (({ second with sys.phase := .cards } : Dev).role = 2 ∧ second.clk.clkinOk = true ∧
      ∀ x ∈ second.link.images.toList, x.2 = (false, false)) ∧
    (booting .vintage).sys.phase = .vintage ∧
    ((booting .selfTest).sys.phase = .selfTest ∧ (booting .selfTest).clk.clkinOk = true) ∧
    (booting .almostReady).mayRise = true := by decide +kernel

theorem witness_PllAnswers :
    (let d : Dev := { booting .locking with clk.locked := false }
     d.clk.clkinOk = true ∧ d.clk.pllOn = true ∧ d.clk.locked = false ∧ d.sys.sleep = .awake ∧ d.sys.phase = .locking ∧
       d.pers.setsDone = false) ∧
    (let d : Dev := { up with clk.locked := false, clk.unlockTs := some 0 }
     d.clk.locked = false ∧ d.clk.unlockTs = some 0 ∧ d.clk.unlockLate = false ∧ d.past 0 (1 * ms) = true ∧ d.alive = true ∧
     d.sys.phase = .run ∧ d.sys.wakeCause = none) ∧
    ((booting .vintage).clk.locked = true ∧ (booting .vintage).operating = false) ∧
    (up.clk.locked = true ∧ up.operating = true ∧ up.sys.ready = true) := by decide +kernel

theorem witness_ForcedClocksAnswer :
    (let d : Dev := { up with clk.adc := ⟨.fallback, 256, 4000, 8000, 7, .pll⟩ }
     d.clk.clkinOk = true ∧ (d.clk.dom .adc).step < 8) ∧
    (∀ x : Dom, (up.clk.dom x).src = .pll) ∧ up.alive = true ∧ up.clk.clkinOk = true ∧ up.sys.phase ≠ .personalityError ∧ (booting .vintage).alive = false ∧ (booting .vintage).clk.core.src = .pll ∧
    (let d : Dev := { booting .noClock with clk.clkinOk := false }
     d.clk.clkinOk = false ∧ d.sys.phase = .noClock ∧ d.pers.strapsDone = true) := by
  refine ⟨by decide +kernel, fun x => by cases x <;> rfl, by decide +kernel⟩

theorem witness_PowerStatesAnswer :
    (up.clk.clkinOk = true ∧ up.sys.sleepIgnored = false ∧ up.sys.sleepPin = false ∧ up.sys.sleep = .awake) ∧
    (({ up with sys.sleepPin := true } : Dev).mayDoze = true ∧ up.pairSecondary = false) ∧
    (let d : Dev := { up with clk.now := 500000000, sys.sleep := .doze, sys.sleepPin := true }
     d.sys.sleep = .doze ∧ d.alive = true ∧ d.sys.sleepPin = true ∧ d.past d.sys.dozeTs (10000 * ms) = true ∧ d.mode = 0 ∧
       d.sys.wakeCause = none ∧ d.pairSecondary = false) ∧
    WakeCause.comparator ≠ .serialFrame ∧
    (let d : Dev := { strapped 0x0008 with sys.sleep := .doze, link := { formed := true } }
     d.sys.sleep = .doze ∧ d.alive = true ∧ d.pairSecondary = true) ∧
    (let d : Dev := { up with sys.sleep := .dormant, uart.deferred := some { chars := [] } }
     d.sys.sleep = .dormant ∧ d.alive = true ∧ d.sys.wakeCause = none ∧ d.uart.deferred ≠ none) := by decide +kernel

/-- A reaction that ended its condition at the timestamp's zero. -/
def oldReact (sev : Sev) : React :=
  { seq := 7, code := 1, sub := 0, sev := sev, lvl := .device, port := 0, started := true, condHeld := false, condTs := 0, escalated := false
    lastTs := 0 }

theorem witness_HoldsAndEndsAnswer :
    let d : Dev := { up with clk.now := 10000000, flt.active := [oldReact .stopPort] }
    d.operating = true ∧ d.sys.ready = true ∧ d.portOn 0 = true ∧ (d.heads.get 0).holdTs = some 0 ∧ d.past 0 (20 * ms) = true ∧
    d.flt.active.find? (fun r => r.sev == .stopPort && r.port == (0 : Fin 4).val && d.mayEnd r) = some (oldReact .stopPort) ∧
    d.flt.active.find? (fun r => r.seq == 7 && d.mayEnd r) = some (oldReact .stopPort) ∧ d.sys.sleep = .awake ∧
    d.stepCounts .gaugeWriter = true := by decide +kernel

theorem witness_PortResetTouchesOnePort :
    (3 : Fin 4) ≠ 0 ∧ ((5, 0x00100000#32) : Nat × BitVec 32) ∈ (Dev.portReset { up with heads.a.dots := [(5, 0x00150001)] } 0).heads.a.dots := by
  decide +kernel

theorem witness_HostTransactionsAnswer :
    (booting .settling).sys.ready = false ∧ (booting .settling).answering = .slice ∧ (booting .settling).caMine 0x200000000000#48 = true ∧
    ({ up with clk.clkinOk := false } : Dev).answering = .none ∧
    (up.caMine 0xA00400000000#48 = false ∧ caRead 0xA00400000000#48 = true ∧ up.caMine 0x200400000000#48 = false ∧ caRead 0x200400000000#48 = false) ∧
    (up.answering = .slice ∧ up.caMine 0xA00000000000#48 = true ∧ caDecoded 0xA00000000000#48 = true ∧ caRead 0xA00000000000#48 = true ∧
      up.caMine 0x200000000000#48 = true ∧ caDecoded 0x200000000000#48 = true ∧ caRead 0x200000000000#48 = false ∧
      up.caMine 0xE00000000000#48 = true ∧ caDecoded 0xE00000000000#48 = false ∧ caRead 0xE00000000000#48 = true ∧
      up.caMine 0x600000000000#48 = true ∧ caDecoded 0x600000000000#48 = false ∧ caRead 0x600000000000#48 = false) ∧
    (let d : Dev := { booting .personalityError with pers.error := true, pers.cause := 4, pers.pin := 0x1A }
     d.answering = .identity ∧ d.caMine 0xA00000000000#48 = true ∧ caDecoded 0xA00000000000#48 = true ∧
       (((List.range (2 * 4)).map (caByte 0xA00000000000#48)).takeWhile (· < 0x200)) ≠ []) ∧
    up.sys.ready = true ∧ up.link.driving = true := by decide +kernel

theorem witness_HostWriteLands :
    Quiet up ∧ Memory.wf up.win.mem = true ∧ up.sys.ready = true ∧ up.link.driving = true ∧ up.link.formed = false ∧
    up.answering = .slice ∧ up.caMine 0x200030000001#48 = true ∧ caDecoded 0x200030000001#48 = true ∧
    caRead 0x200030000001#48 = false ∧ hostIgnored 0x30002 = false ∧ up.discards 0x30002 = false ∧ hostIgnored 0 = true :=
  ⟨witness_QuietDeviceFinishesAtOnce, by decide +kernel⟩

theorem witness_HandBackWritesOwnerByte :
    (0x3FFFFF : Nat) < 0x400000 ∧ Memory.wf (holding 0x30000 [0xD1] up).win.mem = true ∧ (holding 0x30000 [0xD1] up).owns 0x30000 = true := by
  decide +kernel

/-- A section of 16 bytes as the host writes it. -/
def secBytes (ty ix : Byte) : List Byte :=
  [0xD1, ty, ix, 0, 16, 0, 0, 0, 1, 0, 0, 0] ++ leBytes 4 (secCrc ([0xD1, ty, ix, 0, 16, 0, 0, 0, 1, 0, 0, 0] : List Byte) (zeros 16)).toNat ++ zeros 16

/-- A sound section number 20, given to the device. -/
def givenSection (d : Dev) : Dev := holding (secAddr 20) (secBytes 4 0) d

theorem witness_SectionsAndWritersAnswer :
    (let d := givenSection up
     d.operating = true ∧ d.owns (secAddr 20) = true ∧ d.secOn 20 = false ∧ d.sectionFault 20 = none ∧ secType 20 ≠ 3) ∧
    (let d := holding (secAddr 16) (secBytes 3 0) up
     d.owns (secAddr 16) = true ∧ d.secOn 16 = false ∧ d.sectionFault 16 = none ∧ secType 16 = 3) ∧
    ((givenSection up).poke (secAddr 20 + 1) [9]).sectionFault 20 = some cSectionField ∧
    (let d := ((givenSection up).setSec 20 true).poke (secAddr 20 + 3) [0x5A]
     d.line.band = none ∧ d.mover = none ∧ d.secOn 20 = true ∧ d.ram (secAddr 20 + 3) = 0x5A ∧ d.secNamed 20 = false ∧
       d.followsTable 20 = false) ∧
    ({ up with win.handed := [3, 4] } : Dev).win.handed = 3 :: [4] ∧ up.sys.ready = true ∧ up.win.gaugeSeq = 0 ∧
    (let d : Dev := { up with clk.tickNo := 4, clk.tickTs := 999000, win.gaugeTs := 997000, win.gaugeSeq := 7 }
     d.clk.tickNo ≠ 0 ∧ atOrAfter d.clk.tickTs (d.win.gaugeTs + 1250) = true) ∧
    ({ up with win.gaugeSeq := 1 } : Dev).past up.win.gaugeTs (1 * ms) = true := by
  decide +kernel

/-- A device with one status record to write. -/
def telling : Dev := { up with rings.queue := [{ bytes := zeros 64, reserved := false }] }

theorem witness_StatusRecordTakesItsSlot :
    telling.rings.queue = { bytes := zeros 64, reserved := false } :: [] ∧ Memory.wf telling.win.mem = true ∧ telling.rings.statusPtr < 1024 ∧
    (zeros 64).length = 64 ∧ telling.rings.lost = 0 ∧ telling.rings.waiting = [] ∧ telling.owns (statusSlot telling.rings.statusPtr) = false ∧
    (holding (statusSlot 1023) [0xD1] { telling with rings.statusPtr := 1023 }).owns (statusSlot 1023) = true ∧ (63 : Nat) < 64 := by
  decide +kernel

theorem witness_JobSlotIsExamined :
    up.operating = true ∧ up.sys.ready = true ∧ up.owns (jobSlot up.rings.jobPtr) = false ∧
    (let d := holding (jobSlot 0) (sealedRec 0x20 5) up
     d.owns (jobSlot d.rings.jobPtr) = true ∧ (∀ x ∈ d.rings.posted, x.2 ≠ d.rings.jobPtr) ∧
       jobCrcOk (d.rams (jobSlot d.rings.jobPtr) 64) = true ∧ d.rings.jobNext = none ∧
       rSeq (d.rams (jobSlot d.rings.jobPtr) 64) ≠ 4) ∧
    jobCrcOk ((holding (jobSlot 0) (rec_ 0x20 5) up).rams (jobSlot 0) 64) = false := by decide +kernel

/-- A device whose first posted record is of a type. -/
def posting (ty : Byte) (d : Dev) : Dev := { d with rings.posted := [(sealedRec ty 5, 0)] }

theorem witness_RecordsAreAdmitted :
    (posting 0x70 up).rings.posted = (sealedRec 0x70 5, 0) :: [] ∧ (posting 0x70 up).mayAdmit = true ∧ rType (sealedRec 0x70 5) = 0x70 ∧
    ({ posting 0x70 up with sys.sleepPin := true } : Dev).mayAdmit = false ∧
    (rType (sealedRec 0x70 5) ≠ 0x10 ∧ knownType (rType (sealedRec 0x70 5)) = true) := by decide +kernel

/-- A TASTE_HEAD record for the first eight dots of port 0. -/
def tasteRec : List Byte := [0xD1, 0x61, 0, 1, 0, 0, 0, 0, 5, 0, 0, 0, 0, 0, 8] ++ zeros 49

theorem witness_AdmissionRules :
    (up.takeHead (sealedRec 0x99 5) 0 []).rings.flushing = false ∧ knownType (rType (sealedRec 0x99 5)) = false ∧
    rType (sealedRec 0 5) = 0 ∧
    (let e := up.takeHead (sealedRec 0x50 5) 0 []
     knownType (rType (sealedRec 0x50 5)) = true ∧ (match e.check (sealedRec 0x50 5) with | .no _ _ => true | .go _ => false) = true ∧ e.stoppedBy = none) ∧
    (match (up.takeHead tasteRec 0 []).check tasteRec with | .no _ _ => false | .go _ => true) = true ∧
    (let e := ({ up with flt.active := [oldReact .stopDevice] } : Dev).takeHead (sealedRec 0x40 5) 0 []
     e.stoppedBy = some (oldReact .stopDevice)) ∧
    ({ up with rings.admitted := [{ raw := sealedRec 0x70 5, admitTs := 0 }] } : Dev).rings.admitted.any (fun a => rType a.raw == 0x70) = true ∧
    256 ≤ ({ up with rings.admitted := List.replicate 256 { raw := [], admitTs := 0 } } : Dev).rings.admitted.length := by decide +kernel

/-- A BAND record of three lines that feeds no port, the rate field 1,000. -/
def bandRec : List Byte := [0xD1, 0x10, 0, 0, 0, 0, 0, 0, 5, 0, 0, 0, 0, 0, 0, 0, 3, 0, 0, 0, 1, 0, 0, 0, 0xE8, 3] ++ zeros 38

/-- A band whose first line has been fired, on its way. -/
def band1 : BandRt := { raw := bandRec, phase := .firing, next := 1, base := (0, 0) }

/-- Its next line in the pending buffer. -/
def pend1 : PendLine := { seq := 5, idx := 1, outs := Quad.all none, planned := 0, complete := true, trimmed := false, share := [] }

/-- A device on encoder ticks in that band, a tick raised. -/
def printing : Dev :=
  { strapped 0x0100 with line.band := some band1, line.pend := some pend1, line.shiftDone := true, mot.tickDue := some 999999 }

/-- A device as a due tick finds it once its reactions have started. -/
def ticking (d : Dev) : Dev :=
  let f := Dev.notePulse { d with link := { d.link with edge := 9 } }
  Dev.tickReacts { f with mot := { f.mot with tickDue := none } }

theorem witness_LineTicksAnswer :
    (({ up with link.markAt := some 5 } : Dev).link.markAt.isSome = true ∧ ({ up with link.mark := some (5, 6) } : Dev).link.mark.isSome = true) ∧
    (let d : Dev := { up with mot.tickDue := some 3 }
     d.link.mark = none ∧ d.link.markAt = none ∧ d.operating = true ∧ d.sys.ready = true ∧
       d.tickNow = some 3 ∧ (ticking d).lineDue = false ∧ (ticking d).line.band = none ∧ (ticking d).mover = none) ∧
    (let e := ticking printing
     printing.tickNow = some 999999 ∧ printing.operating = true ∧ e.lineDue = true ∧ e.framesMissing = false ∧ e.tickKill = none ∧
       e.linePending = some pend1 ∧ pend1.complete = true ∧ e.line.shiftDone = true ∧ e.fireLate = false ∧ e.wired = false) ∧
    (let e := ticking { printing with line.pend := none }
     e.tickKill = none ∧ e.wired = false ∧ e.linePending = none ∧ e.lineDue = true ∧ e.framesMissing = false) ∧
    (let d : Dev := { strapped 0x0120 with line := printing.line, mot.tickDue := some 3, link.ticked := true, link.nodes := [(2, ⟨3, 0, 0, 0, 0, 0, 0⟩)] }
     d.tickNow = some 3 ∧ d.operating = true ∧ (ticking d).lineDue = true ∧ (ticking d).framesMissing = true) ∧
    (let e := ticking { printing with heads.a.kills := [cCoverOpen], line.band := some { band1 with raw := bandRec.set 3 1 } }
     e.lineDue = true ∧ e.framesMissing = false ∧ e.tickKill = some cCoverOpen) ∧
    up.onRing = false := by decide +kernel

theorem witness_LinesArePressed :
    (let d : Dev := { up with line.sampled := true, line.startTs := some 999999 }
     d.operating = true ∧ d.pairSecondary = false ∧ d.line.sampled = true ∧ d.line.startTs = some 999999 ∧
       atOrAfter d.clk.now 999999 = true) ∧
    (let d : Dev := { up with line.band := some { band1 with phase := .resting }, heads := Quad.all { holdTs := none } }
     d.line.band = some { band1 with phase := .resting } ∧ d.bandMayStart { band1 with phase := .resting } = true) ∧
    (let d : Dev := { up with line.pend := some { pend1 with complete := false } }
     d.operating = true ∧ d.line.pend = some { pend1 with complete := false } ∧ d.sliceIn 0 = true ∧ d.sliceIn 3 = true ∧ 2 < d.slicesIn) ∧
    (let d : Dev := { up with line.slices := ⟨{}, {}, { fenced := true }, { fenced := true }⟩ }
     d.slicesIn = 2 ∧ d.sliceIn 0 = true ∧ d.sliceIn 1 = true ∧ d.sliceIn 2 = false ∧ (d.line.slices.get 0).fenced = false) ∧
    (let d : Dev := { up with line.slices := ⟨{}, { fenced := true }, { fenced := true }, { fenced := true }⟩ }
     d.slicesIn ≤ 1) := by decide +kernel

theorem witness_SupplyConstants : (500 : Nat) = min (max 0 500) 4095 ∧ (4095 : Nat) = min (max 9999 500) 4095 ∧ (4095 : Nat) < 4096 ∧
    2048 ≤ 25000 * 2 ^ 15 / (500 * 500) ∧ 25000 * 2 ^ 15 / (500 * 500) ≤ 4095 ∧ 2048 ≤ 25000 * 2 ^ 21 / (4095 * 4095) ∧
    25000 * 2 ^ 21 / (4095 * 4095) ≤ 4095 := by decide

theorem witness_PixelLevelsAndDecay : (15 : Nat) < 16 ∧ (4095 : Nat) ≠ 4096 := by decide

theorem witness_SlotSelectionIsBounded : ([2, 0, 1] : List Nat).Nodup ∧ selectSlots [100, 50, 25] 7 140 [2, 0, 1] 130 0 0 = (5, 125, 5) := by decide

/-- A slot plan of three slots and a port's figures with it. -/
def plan3 : Plan := { s := 3, carryShift := 1, lateral := 32, heatGain := 64, dur := [100, 50, 25], greedy := [0, 1, 2], mask := [7, 7, 7, 7] }

/-- Figures of a port under that plan. -/
def figs3 : PortFigs := { plan := plan3, ceil := 3000, km := 3276, ksh := 15, rNom := 1000, q := 0, thx := 0 }

theorem witness_DotUpdateByTheRules :
    ((dotUpdate figs3 0 0 0 0 0 0 0 0).word = 0) ∧
    (dotUpdate figs3 0 0 0 0 0 0 2000 0).sel ≠ 0 := by decide +kernel

theorem witness_DotUpdateIsBounded : (figs3.plan.greedy.take figs3.plan.s).Nodup ∧ (15 : Nat) < 16 := by decide

theorem witness_DerateMovesByOne : ({ up with line.derate := 24 } : Dev).line.derate ≤ 24 ∧ (∀ p, (up.heads.get p).soft = false) ∧
    (∃ p, (({ up with heads.d.soft := true } : Dev).heads.get p).soft = true) ∧ up.line.derateOn = false := by decide +kernel

/-- A line being fired, of two slots. -/
def fire2 : FireLine := { seq := 5, idx := 0, tick := 3, slots := ⟨[1, 1], [], [], []⟩, durs := [100, 50] }

/-- A band in its second line, one slot of the first under way. -/
def firing : Dev := { printing with line.fire := some fire2 }

theorem witness_FiringAnswers :
    (let d : Dev := { printing with line.shiftDone := false, line.fire := some { fire2 with slot := 2 } }
     d.operating = true ∧ d.line.band = some band1 ∧ band1.phase = .firing ∧ d.line.shiftDone = false ∧
       fire2.durs.length ≤ ({ fire2 with slot := 2 } : FireLine).slot ∧ d.line.pend = some pend1 ∧ pend1.complete = true) ∧
    ({ pend1 with complete := false } : PendLine).complete = false ∧
    (firing.line.fire = some fire2 ∧ fire2.ended = false ∧ fire2.phases = [] ∧ fire2.slot < fire2.durs.length) ∧
    (let f : FireLine := { fire2 with phases := [[(0, 0)], [(0, 1)]] }
     f.ended = false ∧ f.phases ≠ [] ∧ f.phase + 1 < f.phases.length ∧
       ({ f with phase := 1 } : FireLine).phases.length ≤ ({ f with phase := 1 } : FireLine).phase + 1) := by decide +kernel

theorem witness_StrobeGating :
    (up.line.fire = none ∧ (firing.heads.get 0).kills = [] ∧ (firing.heads.get 0).stopped = false ∧ firing.line.fire = some fire2 ∧
      fire2.killed.getLsbD 0 = false ∧ (7 : Nat) < 8) ∧
    ((({ firing with heads.a.kills := [cCoverOpen] } : Dev).heads.get 0).kills ≠ [] ∧
      (({ firing with heads.a.stopped := true } : Dev).heads.get 0).stopped = true ∧
      ({ fire2 with killed := 1 } : FireLine).killed.getLsbD 0 = true) ∧ (3 : Fin 4) ≠ 0 := by decide +kernel

theorem witness_HeadMonitorsAnswer :
    (up.operating = true ∧ up.persError = false ∧ up.alive = true ∧ up.portOn 0 = true ∧ (up.heads.get 0).hardTrip = false ∧
      (up.heads.get 0).vhHighOn = false) ∧
    (filterNs (up.openInput 0) ≤ (65535#16).toNat ∧ up.openActive 0 true = true ∧ up.awake = true ∧
      ({ up with sys.sleep := .doze } : Dev).awake = false ∧ ({ up with sys.sleep := .doze } : Dev).alive = true) ∧
    ((({ up with heads.a.openPin := true } : Dev).heads.get 0).openPin = true ∧ ({ up with heads.a.openPin := true } : Dev).openActive 0 false = false) ∧
    (({ up with heads.a.hardTrip := true } : Dev).heads.get 0).hardTrip = true ∧ up.mot.travel = .rest ∧
    (({ up with heads.a.vhLow := some 19 } : Dev).heads.get 0).vhLow = some 19 ∧ up.vhEvaluated = true ∧
    vhOf (0 : Adc).toNat * 20 < up.vhMin 0 * 21 ∧ up.vhMin 0 * 21 ≤ vhOf (4095 : Adc).toNat * 20 ∧ 18 + 1 < 20 ∧ 19 ≤ 19 := by decide +kernel


/-- A device tasting under tasteRec. -/
def tasting (t : Taste) : Dev := { up with taste := some t, rings.admitted := [{ raw := tasteRec, admitTs := 0, begun := true }] }

theorem witness_TastingAnswers :
    (let t : Taste := { seq := 5, dot := 0 }
     let u : Taste := { t with open16 := (⟨9600, 0, 0, 0⟩ : Quad (BitVec 16)).mapIdx fun _ v => v.toNat }
     (tasting t).operating = true ∧ (tasting t).taste = some t ∧ t.stage = 0 ∧ (tasting t).past t.stageTs (2 * ms) = true ∧
       (tasting t).tastePorts u = [0] ∧ openOk 9600 = true ∧ openOk 7999 = false ∧ t.yielding = false ∧ t.found = Quad.all []) ∧
    (let t : Taste := { seq := 5, dot := 4, found := ⟨[(3, 0, 0)], [], [], []⟩ }
     (tasting t).taste = some t ∧ t.stage = 0 ∧ t.found.get 0 ≠ []) ∧
    (let t : Taste := { seq := 5, dot := 3, stage := 1 }
     t.stage = 1 ∧ (tasting t).past t.stageTs (400 * us) = true ∧ t.dot % 64 ≠ 0) ∧
    (let t : Taste := { seq := 5, dot := 64, stage := 1 }
     let u : Taste := { t with open16 := (⟨9600, 0, 0, 0⟩ : Quad (BitVec 16)).mapIdx fun _ v => v.toNat }
     t.stage = 1 ∧ (tasting t).past t.stageTs (800 * us) = true ∧ t.dot % 64 = 0 ∧ (tasting t).tastePorts u = [0]) ∧
    (let t : Taste := { seq := 5, dot := 8, stage := 2 }
     t.stage = 2 ∧ (tasting t).past t.stageTs (2 * ms) = true ∧ t.ended = false ∧ ({ t with ended := true } : Taste).ended = true) := by decide +kernel

/-- A segment of ten microsteps. -/
def seg10 : Seg := { dpos := 10, t := 100000, v0 := 0, vEnd := 0, fwd := true }

/-- An axis entry: full current, ratio 1, release after 5 ms. -/
def entry1 : List Byte := [0, 255, 0, 0, 0, 0, 1, 0, 5, 0, 0, 0]

theorem witness_EncodersAndStepsAnswer :
    up.operating = true ∧ up.pairSecondary = false ∧
    (let d : Dev := { strapped 0x0100 with clk.now := 10000000, line.band := some band1 }
     d.tickSource = 1 ∧ d.mot.tickDue = none ∧ d.line.band = some band1 ∧ band1.phase = .firing ∧ d.bandMoves = true ∧
       atOrAfter d.clk.now (d.line.planned + BitVec.ofNat 48 (100 * ms)) = true) ∧
    (let d : Dev := { strapped 0x0100 with
       clk.now := 10000000, media.move := some { seq := 5, startPos := 0, goal := 640, fwd := true }, mot.travel := .planned, mot.dues := [5, 900]
       rings.admitted := [{ raw := rec_ 0x20 5, admitTs := 0, begun := true }] }
     d.tickSource = 1 ∧ d.mot.tickDue = none ∧ d.line.band = none ∧ d.forwardMove = true ∧ d.mot.dues.head? = some 5 ∧
       atOrAfter d.clk.now (5 + BitVec.ofNat 48 (100 * ms)) = true) ∧
    (let d : Dev := { up with axes.a.readyTs := some 2000000 }
     (d.axes.get 0).readyTs = some 2000000 ∧ atOrAfter d.clk.now 2000000 = false) ∧
    (let d : Dev := { up with line.band := some { band1 with fromRest := true } }
     d.line.band = some { band1 with fromRest := true } ∧ d.tickSource ≠ 1) ∧
    (let d : Dev := { up with axes.a.segs := [seg10], axes.d.segs := [seg10, seg10], axes.a.energised := true }
     d.axes.a.readyTs = none ∧ d.axes.d.readyTs = none ∧ d.axes.a.segs = seg10 :: [] ∧ d.axes.d.segs = seg10 :: [seg10] ∧ d.line.band = none ∧
       d.come (d.axes.a.segTs + BitVec.ofNat 50 (seg10.stepAt d.axes.a.lastU (d.axes.a.done + 1))) = true ∧
       d.come (d.axes.d.segTs + BitVec.ofNat 50 (seg10.stepAt d.axes.d.lastU (d.axes.d.done + 1))) = true) ∧
    (let d : Dev := { up with axes.a.segs := [seg10], axes.a.segTs := 3950000 }
     d.come (d.axes.a.segTs + BitVec.ofNat 50 (seg10.stepAt d.axes.a.lastU (d.axes.a.done + 10))) = false) ∧
    (((({ up with axes.d.segs := [seg10, seg10], axes.d.done := 8 } : Dev).segStep 3 seg10).onAxis 3 (Axis.nextSegs 200)).axes.d.segs ≠ []) ∧
    (((({ up with axes.d.segs := [seg10], axes.d.done := 9 } : Dev).segStep 3 seg10).onAxis 3 (Axis.nextSegs 200)).axes.d.segs = []) ∧
    (let d : Dev := { up with axes.a.pos := 100, axes.b.energised := true, axes.b.entry := entry1 }
     (d.axes.get 1).energised = true ∧ engaged (d.axes.get 1).entry = true ∧
       d.traceNow * eRatioS (d.axes.get 1).entry / 2 ^ 32 ≠ (d.axes.get 1).pos ∧ (d.axes.get 1).readyTs = none) := by
  decide +kernel

theorem witness_WatermarkOnlyRises :
    up.tickSource ≠ 1 ∧ up.jamOnAx0 = false ∧ max up.mot.mark 0 - (mTol up.curMedia : Int) ≤ 0 := by decide +kernel

theorem witness_MicrostepMovesOneAxis : eStallOn (up.axes.get 0).entry = false ∧ (3 : Fin 4) ≠ 0 := by decide +kernel

/-- A pulse of one SOLENOID record on channel 2. -/
def run2 : SolRun :=
  { seq := 9, ch := 2, paired := false, count := 3, peak := 100, peakMax := 20, hold := 50, holdTime := 30, period := 100, deadline := none
    admitTs := 0, begun := true }

/-- A device with that run in a phase since the timestamp's zero. -/
def pulsing (ph : Pulse) : Dev := { up with solx.runs := [run2], sol.c := { owner := some 9, phase := ph, gate := true } }

theorem witness_AxisEventsAnswer :
    (let d : Dev := { up with axes.a.energised := true, axes.a.entry := entry1 }
     let a := d.axes.get 0
     a.energised = true ∧ a.moving = false ∧ a.segs = [] ∧ eRelease a.entry ≠ 65535 ∧ d.past a.restTs (eRelease a.entry * ms) = true ∧
       d.groupHeld = false ∧ a.held = false ∧ d.justOn 0 false = false) ∧
    (let d : Dev := { up with mot.auxBrake := true }
     d.mot.auxBrake = true ∧ d.past d.axes.d.restTs (20 * ms) = true) ∧
    (let d : Dev := { up with clk.now := 2000000, mot.auxTarget := some 100, pers.axisCfg := ⟨0, 0, 0, 2⟩ }
     d.auxDc = true ∧ d.mot.auxTarget ≠ none ∧ d.mot.auxBrake = false ∧ d.past d.mot.auxTs (50 * ms) = true ∧ eJamOn d.axes.d.entry = false) ∧
    (let d : Dev := { up with clk.now := 2000000, axes.d.entry := [0, 0, 0, 128, 0, 0, 0, 0, 0, 0, 0, 2], mot.auxCounts := [1999999, 1]
                              mot.auxTarget := some 100, pers.axisCfg := ⟨0, 0, 0, 2⟩ }
     d.auxDc = true ∧ d.mot.auxTarget ≠ none ∧ d.mot.auxBrake = false ∧ d.past d.mot.auxTs (50 * ms) = true ∧ eJamOn d.axes.d.entry = true ∧ (d.mot.auxCounts.filter fun t => !d.past t (50 * ms)).length = 1 ∧ 1 < eJam d.axes.d.entry * 16 ∧
       eJam d.axes.d.entry * 16 ≤ 32) ∧
    (let d : Dev := { up with axes.a.energised := true, axes.a.a.on := true, axes.a.b.off := 40, axes.a.a.limits := 15, axes.a.entry := entry1
                              pers.axisCfg := ⟨1, 1, 1, 2⟩ }
     (d.axes.get 0).energised = true ∧ (d.axes.get 0).held = false ∧ ((d.axes.get 0).wind false).on = true ∧ ((d.axes.get 0).wind true).on = false ∧
       ((d.axes.get 0).wind true).off ≤ (40#32).toNat ∧ (39#32).toNat < ((d.axes.get 0).wind true).off ∧
       d.pers.axisCfg.get 0 ≠ 2 ∧ d.pers.axisCfg.get 3 = 2 ∧
       (0#32).toNat < 50 * (bits (eDrive (d.axes.get 0).entry) 1 0 + 1) ∧ 50 * (bits (eDrive (d.axes.get 0).entry) 1 0 + 1) ≤ (19999#32).toNat) ∧
    (let d : Dev := { up with axes.a.energised := true, axes.a.a.on := true, axes.a.a.limits := 15, axes.a.level := 255, axes.a.phase := 64, axes.a.entry := entry1 }
     let e := ((d.windShare 0 false 20000).stepShare 0 false 20000)
     20000 ≤ (20000#32).toNat ∧ 125 ≤ e.windCode 0 false ∧ (e.axes.get 0).moving = false ∧ 16 ≤ ((e.axes.get 0).wind false).limits + 1) ∧
    ((pulsing .peak).runOn 2 = some run2 ∧ run2.ch = 2 ∧ ((pulsing .peak).sol.get 2).pulsing = true ∧ ((pulsing .peak).sol.get 2).gate = true ∧
      (99#32).toNat < 100 ∧ 100 ≤ (100#32).toNat) ∧
    (let d : Dev := { pulsing .peak with sol.c.gate := false, sol.c.off := 7 }
     d.runOn 2 = some run2 ∧ (d.sol.get 2).pulsing = true ∧ (d.sol.get 2).gate = false ∧ (d.sol.get 2).off ≤ (7#32).toNat ∧
       (6#32).toNat < (d.sol.get 2).off) := by decide +kernel

theorem witness_MediaRestAnswers :
    (let d : Dev := { up with mot.travel := .stopping, mot.superseded := some 64 }
     d.operating = true ∧ d.mot.travel ≠ .rest ∧ d.axes.a.segs = [] ∧ d.mot.per = 0 ∧ d.mot.tickDue = none ∧ d.mot.travel = .stopping ∧
       d.mot.superseded = some 64) ∧
    (let d : Dev := { up with mot.travel := .stopping, mot.returnTo := some 64 }
     d.mot.superseded = none ∧ d.mot.returnTo = some 64 ∧ (64 : Int) ≠ d.mot.bound) ∧
    ({ up with mot.travel := .stopping, mot.returnTo := some 0 } : Dev).mot.bound = 0 ∧
    (let d : Dev := { up with mot.travel := .planned }
     let e := d.restGroup.bandRests.moverRests.closeQuiet
     d.mot.travel ≠ .stopping ∧ e.mover = none ∧ e.line.band = none) ∧
    (let d : Dev := { up with mot.travel := .planned, line.band := some band1 }
     (d.restGroup.bandRests.moverRests.closeQuiet).line.band.isSome = true) := by decide +kernel

/-- Media section 0 in force with a yank limit, an encoder and channel 1 as paper-out sensor. -/
def media0 (d : Dev) : Dev :=
  (holding (secAddr 16) ([0xD1, 3, 0, 0, 0, 1] ++ zeros 14 ++ [0, 0, 1, 0] ++ zeros 4 ++ [5, 0] ++ zeros 90 ++ [4]) d).setSec 16 true

/-- A LEARN_MEDIA record of channel 1, range distance 256. -/
def learnRec : List Byte := [0xD1, 0x60, 0, 0, 0, 0, 0, 0, 5, 0, 0, 0, 2, 0, 0, 0, 0, 1] ++ zeros 46

theorem witness_MediaEventsAnswer :
    (let d := media0 up
     d.awake = true ∧ d.pairSecondary = false ∧ mCpl d.curMedia ≠ 0 ∧ mYank d.curMedia ≠ 0 ∧ d.mot.encHist.length < 4 ∧
       ({ d with mot.yankTs := 999999 } : Dev).past 999999 (2 * ms) = false ∧ d.clk.now.toNat % 250 = 0 ∧ d.roundOverlaps = false ∧
       ({ d with line.sampled := true } : Dev).roundOverlaps = true ∧ (1000001#48).toNat % 250 ≠ 0) ∧
    (let d := media0 { up with mot.encHist := [0, 0, 0, 0], mot.cmdHist := [0, 0, 0, 0] }
     d.mot.encHist[3]? = some 0 ∧ d.mot.cmdHist[3]? = some 0 ∧ mCpl d.curMedia ≠ 0 ∧ mYank d.curMedia ≠ 0) ∧
    (let m : Move := { seq := 5, startPos := -64, goal := 999999, fwd := true }
     let a : Adm := { raw := learnRec, admitTs := 0, begun := true }
     let d : Dev := { up with media.move := some m, rings.admitted := [a] }
     d.learning = some (m, a) ∧ m.ranged = false ∧ rDist a.raw ≤ 4 * (d.samplePos (tens d.clk.now) - m.startPos) ∧ bit (lMask a.raw) 0 = false ∧
       bit (lMask a.raw) 1 = true ∧ (d.media.learn.get 1).eOld = 0) ∧
    (let d := media0 { up with media.paperOut := true, sense.b.mediaTs := some 0, clk.now := 20000000 }
     d.operating = true ∧ d.media.paperOut = true ∧ d.media.cover = false ∧
       (∀ c : Fin 8, mRole d.curMedia c.val = 4 → d.past 0 (500 * ms) = true ∧ (d.sense.get c).mediaTs = some 0) ∧ mRole d.curMedia 1 = 4) ∧
    (up.alive = true ∧ ({ up with sys.sleep := .doze } : Dev).awake = false ∧ up.awake = true ∧ filterNs (mCover up.curMedia) ≤ (65535#16).toNat ∧
      (0#16).toNat < filterNs (mCover up.curMedia) ∧ true = !(bit (mCover up.curMedia) 0)) ∧
    (({ up with media.cover := true } : Dev).media.cover = true ∧ false = bit (mCover ({ up with media.cover := true } : Dev).curMedia) 0) ∧
    (let c : CutRt := { seq := 5, step := .homing, startPos := 0 }
     ({ up with media.cut := some c } : Dev).media.cut = some c ∧ ({ up with media.cut := some c } : Dev).cutLate c = true) := by decide +kernel

theorem witness_SensorChangesAfterItsRun : (0 : Nat) < 1 ∧ (⟨true, 0, 0, 0, 0⟩ : Track).run < 1 ∧ (⟨true, 6, 0, 0, 0⟩ : Track).run < 7 := by decide

theorem witness_PulsesAnswer :
    (let r : SolRun := { run2 with begun := false }
     let d : Dev := { up with solx.runs := [r], sol.c := { owner := some 9 }, pers.sets := List.replicate 12 { state := 5 } }
     d.run 9 = some r ∧ d.awake = true ∧ d.mayPulse r = true ∧ d.media.cut = none ∧ r.deadline = none) ∧
    (let r : SolRun := { run2 with begun := false, deadline := some 999999 }
     let d : Dev := { up with solx.runs := [r] }
     d.run 9 = some r ∧ d.operating = true ∧ r.begun = false ∧ atOrAfter d.clk.now 999999 = true ∧ d.clk.now ≠ 999999) ∧
    (let d := pulsing .peak
     d.runOn 2 = some run2 ∧ d.operating = true ∧ (d.sol.get run2.ch).phase = .peak ∧
       d.past (d.sol.get run2.ch).phaseTs (run2.peakMax * hundred) = true) ∧
    (let d := pulsing .hold
     (d.sol.get run2.ch).phase = .hold ∧ d.past (d.sol.get run2.ch).phaseTs (run2.holdTime * hundred) = true) ∧
    (let d := pulsing .released
     (∀ k ∈ run2.chans, (d.sol.get k).phase = .released ∧ d.past (d.sol.get k).relTs (100 * us) = true ∧ (d.sol.get k).belowTs = none) ∧
       run2.stop = none ∧ run2.index + 1 < run2.count ∧ run2.count ≤ 2 + 1) ∧
    ({ run2 with stop := some (1, 0, .device) } : SolRun).stop = some (1, 0, .device) := by decide +kernel

theorem witness_StageFollowsThePhases :
    ((pulsing .hold).sol.get 2).phase ≠ .idle ∧ (up.sol.get 2).phase = .idle ∧ (7 : Fin 8) ≠ 2 ∧
    (pulsing .peak).stageLevels.solx.hs.get 1 = true := by decide +kernel

theorem witness_CoilsAnswer :
    (up.awake = true ∧ up.pairSecondary = false) ∧
    (let x (n : Nat) (w : Nat) (t : Option Ts) : Sol :=
       { owner := some 9, phase := .peak, regulating := true, windows := n, lowTs := t, sMax := 100, winOn := w, regTs := 900000 }
     (x 0 0 none).phase = .peak ∧ (x 0 0 none).regulating = true ∧ (x 0 0 none).seated = none ∧ (x 0 0 none).windows = 0 ∧ 1 ≤ (x 1 0 none).windows ∧
       up.past ((x 2 0 none).regTs + BitVec.ofNat 48 ((x 2 0 none).windows * (200 * us))) (200 * us) = true ∧
       3 * max 100 (min 128 ((x 1 12500 none).winOn * 128 / 20000)) / 4 < min 128 ((x 1 12500 none).winOn * 128 / 20000) ∧
       min 128 ((x 1 11000 none).winOn * 128 / 20000) ≤ 3 * max 100 (min 128 ((x 1 11000 none).winOn * 128 / 20000)) / 4 ∧
       (x 2 0 (some 5)).lowTs = some 5) ∧
    (∀ c : Fin 8, (up.sol.get c).owner = none ∧ (up.sol.get c).hotPosted = false) ∧
    ((pulsing .peak).runOn 2 = some run2 ∧ ((pulsing .peak).sol.get run2.ch).strong = false ∧
      (pulsing .peak).past ((pulsing .peak).sol.get run2.ch).phaseTs (min (2 * ms) (run2.peakMax * hundred)) = true) ∧
    (let x : Sol := { owner := some 9 }
     let d : Dev := { up with pers.sets := List.replicate 12 { state := 5 }, clk.now := 20000000, sol := ⟨x, x, x, x, x, x, x, {}⟩ }
     d.alive = true ∧ d.awake = true ∧ d.noSolenoids = false ∧ d.clk.now.toNat % 2500000 = 0 ∧ (20000001#48).toNat % 2500000 ≠ 0 ∧
       d.solx.fenced.get (pairOf 7) = false ∧ shuntOf (0 : Adc).toNat < d.capSixteenth ∧ (d.sol.get 7).gate = false ∧
       (d.sol.get 7).owner = none ∧ d.solx.hs.get 3 = false ∧ d.past (d.solx.hsTs.get 3) (1 * ms) = true ∧
       d.capSixteenth ≤ shuntOf (4095 : Adc).toNat ∧ ∀ c : Fin 8, c ≠ 7 → (d.sol.get c).owner ≠ none) ∧
    (let d : Dev := { up with sol := Oct.all { owner := some 9 } }
     ∀ c : Fin 8, (d.sol.get c).owner ≠ none) ∧
    (let d : Dev := { pulsing .peak with sol.c.gateTs := 999990 }
     (d.sol.get 2).gate = true ∧ d.past (d.sol.get 2).gateTs 5 = true) ∧
    run2.paired = false ∧ ({ run2 with paired := true } : SolRun).paired = true := by decide +kernel


/-- A character without a tag. -/
def ch (b : Byte) : UChar := { byte := b }

/-- The samples of a character of eight data bits and one stop bit on a quiet line. -/
def onLine (b : Byte) : UBits := { bits := 0 :: (List.range 8).map (fun i => if b.getLsbD i then 7 else 0) ++ [7] }

/-- What a frame or unit is on a quiet line. -/
def wire (f : UFrame) : ULine := { chars := f.chars.map fun c => onLine c.byte }

/-- R444, R445: two of three samples decide a bit, and three that differ tag the character; a start bit decided high is no character. -/
theorem test_majority : rxChar 0 { (onLine 0x5A) with bits := (onLine 0x5A).bits.set 1 2 } = some { byte := 0x5A, noise := true } ∧
    rxChar 0 { (onLine 0x5A) with bits := (onLine 0x5A).bits.set 1 6 } = some { byte := 0x5B, noise := true } ∧
    rxChar 0 { (onLine 0x5A) with bits := (onLine 0x5A).bits.set 0 5 } = none := by decide +kernel

/-- R446: of a stop bit with an edge latched from sample 7 only sample 7 takes part in the noise test. -/
theorem test_lateEdge : (rxChar 0 { bits := (onLine 0x5A).bits.set 9 3, edge := some 7 }).map (·.noise) = some false ∧
    (rxChar 0 { bits := (onLine 0x5A).bits.set 9 3, edge := none }).map (·.noise) = some true := by decide +kernel

/-- A frame: sync, pid, then the given characters. -/
def frame (pid : Byte) (rest : List Byte) : UFrame := { chars := ([0x55, pid] ++ rest).map ch }

/-- A write frame of one byte to offset 0x30002 under identifier 8, with its checksum. -/
def writeFrame1 : UFrame := frame (pidOf 8) ([1, 2, 0, 3, 0x5A] ++ [checksum [pidOf 8, 1, 2, 0, 3, 0x5A]])

/-- A poll frame under identifier 8. -/
def pollFrame : UFrame := frame (pidOf 8) [0, checksum [pidOf 8, 0]]

/-- A write unit and a poll unit. -/
def writeUnit1 : UFrame := { chars := ([0x55, 1, 2, 0, 3, 0x5A] ++ [checksum [1, 2, 0, 3, 0x5A]]).map ch }
/-- A poll unit. -/
def pollUnit : UFrame := { chars := [0x55, 0, checksum [0]].map ch }

theorem witness_SerialAnswers :
    (let d : Dev := { strapped 0x0800 with uart.opened := true, uart.rate := 115200 }
     d.framing = true ∧ d.uart.opened = true ∧ d.received (wire writeFrame1) = writeFrame1 ∧ (frameOf writeFrame1).len = some 1 ∧
       (frameOf writeFrame1).bytes.length = (frameOf writeFrame1).whole ∧ d.received (wire pollFrame) = pollFrame ∧ (frameOf pollFrame).len = some 0 ∧
       (frameOf pollFrame).bytes.length = (frameOf pollFrame).whole ∧ d.streaming = false ∧
       50000000 * 11 ≤ (4800#32).toNat * d.uart.rate ∧ (4700#32).toNat * d.uart.rate < 50000000 * 11 ∧
       50000000 * 16 < (7000#32).toNat * d.uart.rate ∧ (6900#32).toNat * d.uart.rate ≤ 50000000 * 16) ∧
    (let d : Dev := { strapped 0x0800 with uart.opened := true, uart.rate := 115200 }
     let f (bs : List Byte) : UFrame := { chars := bs.map ch }
     d.received (wire (f [0x54])) = f [0x54] ∧ (charBytes (f [0x54])).getD 0 0 ≠ 0x55 ∧ (f [0x55]).chars.length < 2 ∧
       d.received (wire (f [0x55, pidOf 8])) = f [0x55, pidOf 8] ∧ (charBytes (f [0x55, pidOf 8])).getD 0 0 = 0x55 ∧
       d.rateFails (f [0x55, pidOf 8]) = false ∧ 2 ≤ (f [0x55, pidOf 8]).chars.length ∧ d.sys.sleep = .awake ∧
       pidOk ((charBytes (f [0x55, pidOf 8])).getD 1 0) = true ∧ d.accepts ((charBytes (f [0x55, pidOf 8])).getD 1 0) = true ∧ d.uartMode = 2) ∧
    ((strapped 0x0800).accepts (pidOf 5) = false ∧ pidOk 9 = false) ∧
    (frameOf (frame (pidOf 8) [128])).badField = false ∧ (frameOf (frame (pidOf 8) [129, 0, 0, 0])).badField = true ∧
    (let d : Dev := { strapped 0x0400 with uart.rate := 115200 }
     d.streaming = true ∧ d.received (wire writeUnit1) = writeUnit1 ∧ (unitOf writeUnit1).bytes.getD 0 0 = 0x55 ∧ (unitOf writeUnit1).len = some 1 ∧
       (unitOf writeUnit1).bytes.length = (unitOf writeUnit1).whole ∧ d.received (wire pollUnit) = pollUnit ∧ (unitOf pollUnit).bytes.getD 0 0 = 0x55 ∧
       (unitOf pollUnit).len = some 0 ∧ (unitOf pollUnit).bytes.length = (unitOf pollUnit).whole ∧ 50000000 * 16 < (7000#32).toNat * d.uart.rate ∧
       rxChar d.uartFormat (onLine 0x12) = some (ch 0x12) ∧ (0x12 : Byte) ≠ 0x55 ∧ (0x12 : Byte) ≠ 0x11 ∧ (0x12 : Byte) ≠ 0x13 ∧
       voted (({ bits := [] } : UBits).bits.getD 0 7) = true) ∧
    (let d : Dev := { strapped 0x0400 with uart.replies := [([1], true)] }
     d.hears = true ∧ d.uartMode ≠ 0 ∧ d.uart.held = false ∧ d.sys.sleep ≠ .dormant ∧ d.uart.rxUnits = [] ∧ d.uart.xoffSent = false ∧
       d.uart.replies = ([1], true) :: []) := by decide +kernel

theorem witness_SerialFramesAreJudged :
    (let d : Dev := strapped 0x0800
     let p := frameOf writeFrame1
     d.uartMode ≠ 3 ∧ d.sys.sleep = .awake ∧ p.bytes.getD 0 0 = 0x55 ∧ pidOk (p.bytes.getD 1 0) = true ∧ d.accepts (p.bytes.getD 1 0) = true ∧
       (p.bytes.getD 1 0).toNat % 64 ≠ 0x3F ∧ lostFor writeFrame1 p false = none) ∧
    (strapped 0x0800).accepts (pidOf 5) = false ∧ pidOk 9 = false ∧
    lostFor (frame (pidOf 8) [0, 0]) (frameOf (frame (pidOf 8) [0, 0])) false = some cUartChecksum := by decide +kernel

theorem witness_ProtectedIdentifier : (63 : Nat) < 64 := by decide

/-- A store into bank A in a step. -/
def storeAt (step sector : Nat) : Store := { records := [], vintage := 2, bankB := false, ts := 0, step := step, sector := sector }

theorem witness_StoreAnswers :
    ((249#32).toNat < 250 ∧ 250 ≤ (250#32).toNat ∧ up.sys.ready = true ∧ up.awake = true ∧ up.factoryOnly = false ∧ up.cel.store = none ∧ up.measuring = false ∧ up.cel.pulseHeld = false) ∧
    ({ up with cel.store := some (storeAt 1 0) } : Dev).cel.store ≠ none ∧ ({ up with cel.pulseHeld := true } : Dev).cel.pulseHeld = true ∧
    ((storeAt 1 237).suspended = none ∧ (storeAt 1 237).step = 1 ∧ (storeAt 2 235).step = 2 ∧ (storeAt 3 0).step = 3 ∧ (storeAt 3 1).sector ≠ 0 ∧
      (storeAt 4 0).step = 4) ∧
    up.cel.bankState false ≠ none ∧
    (let st : Store := { storeAt 2 0 with suspended := some 0 }
     let d : Dev := { up with clk.now := 500000000, cel.store := some st }
     d.cel.store = some st ∧ st.suspended = some 0 ∧ st.starved = false ∧ d.past 0 (10000 * ms) = true ∧ d.readUnderWay = false ∧
       d.onFallback = false ∧ d.printing = false ∧ d.powerState = 1) ∧
    ({ storeAt 2 0 with starved := true } : Store).starved = true ∧
    (let a : Adm := { raw := sealedRec 0x50 5, admitTs := 0 }
     let d : Dev := { up with cel.reads := [(5, 0)], rings.admitted := [a] }
     d.pairSecondary = false ∧ d.pairPrimary = false ∧ (5, 0) ∈ d.cel.reads ∧ d.readRecord 0 ≠ .wait ∧ d.adm 5 = some a ∧
       ∀ x ∈ d.cel.reads, x ≠ (5, 0) → d.readRecord x.2 = .wait) ∧ (laterSeq 9 5 = true ∧ laterSeq 5 9 = false) := by decide +kernel

theorem crcRun_append (c : W32) (a b : List Byte) : crcRun c (a ++ b) = crcRun (crcRun c a) b := List.foldl_append ..

/-- The header's fields before its check word. -/
def headFields : List Byte := leBytes 4 0x4B545631 ++ leBytes 4 1 ++ [0, 0]

theorem headFields_crc : crc32c (headFields ++ zeros 498) = 0x57EB710A#32 := by
  have h : zeros 498 = zeros 50 ++ zeros 50 ++ zeros 50 ++ zeros 50 ++ zeros 50 ++ zeros 50 ++ zeros 50 ++ zeros 50 ++ zeros 50 ++ zeros 48 := by decide +kernel
  have h0 : crcRun 0xFFFFFFFF#32 headFields = 0x0F156E67#32 := by decide +kernel
  have h1 : crcRun 0x0F156E67#32 (zeros 50) = 0x48E4FA1A#32 := by decide +kernel
  have h2 : crcRun 0x48E4FA1A#32 (zeros 50) = 0xB044A58D#32 := by decide +kernel
  have h3 : crcRun 0xB044A58D#32 (zeros 50) = 0x2A85936E#32 := by decide +kernel
  have h4 : crcRun 0x2A85936E#32 (zeros 50) = 0xDDE85BAF#32 := by decide +kernel
  have h5 : crcRun 0xDDE85BAF#32 (zeros 50) = 0xA60227F6#32 := by decide +kernel
  have h6 : crcRun 0xA60227F6#32 (zeros 50) = 0x427BB6E4#32 := by decide +kernel
  have h7 : crcRun 0x427BB6E4#32 (zeros 50) = 0xC3F04E08#32 := by decide +kernel
  have h8 : crcRun 0xC3F04E08#32 (zeros 50) = 0xB0359F4D#32 := by decide +kernel
  have h9 : crcRun 0xB0359F4D#32 (zeros 50) = 0xD2A78111#32 := by decide +kernel
  have h10 : crcRun 0xD2A78111#32 (zeros 48) = 0xA8148EF5#32 := by decide +kernel
  simp only [crc32c, h, crcRun_append, h0, h1, h2, h3, h4, h5, h6, h7, h8, h9, h10]
  decide

/-- The header of an empty vintage in bank A. -/
def emptyHeader : List Byte := headFields ++ zeros 498 ++ leBytes 4 0x57EB710A


/-- A cellar with that header in copy 0 of bank A. -/
def cellar1 : Cellar := { cells := (List.range 512).map fun i => (2048 + i, emptyHeader.getD i 0) }

theorem cellar1_byte (k : Nat) (h : k < 512) : cellar1.byte (2048 + k) = emptyHeader.getD k 0 := by
  have e : (List.range 512).find? (fun i => 2048 + i == 2048 + k) = some k := by
    rw [List.find?_eq_some_iff_getElem]
    refine ⟨by simp, k, by simpa using h, by simp, fun j hj => ?_⟩
    simp only [List.getElem_range]
    have : j ≠ k := Nat.ne_of_lt hj
    simp; omega
  simp only [Cellar.byte, cellar1, List.find?_map, Function.comp_def, e, Option.map_some, Option.getD_some]

theorem headFields_length : headFields.length = 10 := by decide

theorem zeros_length (n : Nat) : (zeros n).length = n := List.length_replicate

theorem leBytes4_length (v : Nat) : (leBytes 4 v).length = 4 := rfl

theorem emptyHeader_length : emptyHeader.length = 512 := by
  rw [emptyHeader, List.length_append, List.length_append, headFields_length, zeros_length, leBytes4_length]

theorem emptyHeader_gap (i : Nat) (h : 10 ≤ i) (h' : i < 508) : emptyHeader.getD i 0 = 0 := by
  have z (n k : Nat) (h : k < n) : (zeros n)[k]? = some 0 := by rw [zeros, List.getElem?_replicate, if_pos h]
  rw [emptyHeader, List.getD_eq_getElem?_getD,
    List.getElem?_append_left (by rw [List.length_append, headFields_length, zeros_length]; exact h'),
    List.getElem?_append_right (by rw [headFields_length]; exact h), headFields_length, z _ _ (by omega), Option.getD_some]

theorem emptyHeader_range : (List.range 512).map (fun k => emptyHeader.getD k 0) = emptyHeader := by
  apply List.ext_getElem
  · rw [List.length_map, List.length_range, emptyHeader_length]
  · intro i _ h
    rw [List.getElem_map, List.getElem_range, List.getD_eq_getElem?_getD, List.getElem?_eq_getElem h, Option.getD_some]

theorem cellar1_header : cellar1.header false 0 = emptyHeader := by
  rw [← emptyHeader_range]
  exact List.map_congr_left fun k hk => cellar1_byte k (List.mem_range.mp hk)

theorem cellar1_copy0 : cellar1.headerOk false 0 = true := by
  have e : emptyHeader.take 0x1FC = headFields ++ zeros 498 := by
    rw [emptyHeader]
    exact List.take_left' (by rw [List.length_append, headFields_length, zeros_length])
  have m : le emptyHeader 0 4 = 0x4B545631 ∧ le emptyHeader 8 1 = 0 ∧ le emptyHeader 9 1 = 0 := by decide +kernel
  have x : le emptyHeader 0x1FC 4 = 0x57EB710A := by decide +kernel
  simp only [Cellar.headerOk, cellar1_header, e, headFields_crc, m.1, m.2.1, m.2.2, x]
  decide

theorem cellar1_copy1 : cellar1.headerOk false 1 = false := by
  have s : cellar1.sector false (119 * 1) = 123 := by decide +kernel
  have b : cellar1.byte 62976 = 0xFF := by
    have e : (List.range 512).find? (fun i => 2048 + i == 62976) = none := by
      rw [List.find?_eq_none]; intro x hx; have := List.mem_range.mp hx; simp; omega
    simp only [Cellar.byte, cellar1, List.find?_map, Function.comp_def, e, Option.map_none, Option.getD_none]
  have m : le (cellar1.header false 1) 0 4 ≠ 0x4B545631 := by
    intro h
    have h' := congrArg (· % 256) h
    simp only [le, Cellar.header, s] at h'
    simp [b] at h'
  simp [Cellar.headerOk, m]

theorem cellar1_records : cellar1.firstBad false emptyHeader = none := by
  rw [Cellar.firstBad, List.find?_eq_none]
  intro i hi
  have := List.mem_range.mp hi
  have z : (dirEntry emptyHeader i).1 = 0 := by
    show le emptyHeader (64 + 6 * i) 2 = 0
    rw [le, le, le, emptyHeader_gap (64 + 6 * i) (by omega) (by omega), emptyHeader_gap (64 + 6 * i + 1) (by omega) (by omega)]
    rfl
  rw [Cellar.recOk, Cellar.recOk, z]
  rintro h
  exact Bool.noConfusion h

/-- The clause of StoreAnswers in which the new bank verifies. -/
theorem witness_StoreCompletes : ({ up with cel := cellar1 } : Dev).cel.bankState false = none := by
  show cellar1.bankState false = none
  have h : cellar1.head false = some emptyHeader := by rw [Cellar.head, if_pos cellar1_copy0, cellar1_header]
  rw [Cellar.bankState, h]
  simp only [Cellar.headsDiffer, cellar1_copy1, cellar1_records, Bool.and_false, Bool.false_and, Option.isSome_none]
  rfl

/-- A frame with its check word. -/
def link1 (ty src dst : Nat) (payload : List Byte) : LinkFrame := { bytes := frameBytes ty src dst 3 0 0 payload, intact := true }

theorem witness_LinkFramesAnswer :
    (let d : Dev := { strapped 0x0004 with link.aligned := true, link.flights := [⟨frameBytes 0x10 0 0xFF 3 0 0 [], 0, 0⟩] }
     let f := link1 0x10 1 0 []
     let own := link1 0x10 0 0xFF []
     d.onRing = true ∧ d.clk.clkinOk = true ∧ d.clk.linkRun = true ∧ d.persError = false ∧ d.link.aligned = true ∧ le f.bytes 0 1 = 0x10 ∧
       le f.bytes 1 1 ≠ d.node ∧ (f.intact && frameGood f.bytes) = true ∧ le f.bytes 2 1 = d.node ∧
       d.link.seen.contains (f.bytes.getD 1 0, f.bytes.getD 3 0) = false ∧
       le own.bytes 1 1 = d.node ∧ (own.intact && frameGood own.bytes) = true ∧
       (d.link.flights.filter fun x => x.bytes.getD 3 0 ≠ own.bytes.getD 3 0) = []) ∧
    ((link1 0x10 1 5 []).bytes.getD 2 0 = 5 ∧ frameGood ((link1 0x10 1 0 []).bytes.set 5 1) = false ∧
      ({ up with link.seen := [(1, 3)] } : Dev).link.seen.contains (1, 3) = true) ∧
    (∀ ty ∈ [0x20, 0x21, 0x30, 0x22, 0x40, 0x50], le (link1 ty 1 0 []).bytes 0 1 = ty) := by decide +kernel

theorem witness_RingAnswers :
    (let d : Dev := { strapped 0x0004 with link.flights := [⟨frameBytes 0x10 0 0xFF 3 0 0 [], 2, 0⟩] }
     d.clk.clkinOk = true ∧ d.clk.linkRun = true ∧ d.persError = false ∧ d.onRing = true ∧ d.link.aligned = false ∧ d.mayMark = false ∧
       d.link.flights = ⟨frameBytes 0x10 0 0xFF 3 0 0 [], 2, 0⟩ :: [] ∧ d.frameLate (frameBytes 0x10 0 0xFF 3 0 0 []) = false ∧
       d.past 0 (ceilDiv (d.tRing + 40) 4) = true) ∧
    (let d : Dev := { strapped 0x0010 with link.aligned := true }
     d.onRing = true ∧ d.link.aligned = true ∧ d.alive = true ∧ d.mode ≠ 0 ∧ d.link.formed = false) ∧
    (let d : Dev := { strapped 0x0020 with link.aligned := true, link.downHeld := true, link.nodes := [(2, ⟨3, 0, 0, 0, 0, 0, 0⟩)] }
     d.alive = true ∧ d.link.aligned = true ∧ d.link.downHeld = true ∧ d.link.joined = true ∧ d.past d.link.alignTs (10 * ms) = true ∧
       2 ≤ d.mode ∧ ∀ n ∈ d.link.nodes, n.2.state = 3) ∧
    (let d : Dev := { strapped 0x0011 with link.aligned := true, link.downHeld := true, link.nodes := [(0, ⟨3, 0, 0, 0, 0, 0, 0⟩)] }
     d.alive = true ∧ d.mode = 1 ∧ d.pos ≠ 0 ∧ ∃ n ∈ d.link.nodes, n.1 / 2 = 0 ∧ n.2.state ≠ unheard) ∧
    (let d : Dev := { strapped 0x0021 with link.aligned := true }
     2 ≤ d.mode ∧ d.pos ≠ 0 ∧ d.pers.valid = true ∧ d.persError = false ∧ d.clk.clkinOk = true ∧ d.link.joined = true ∧ d.alive = true ∧
       d.link.aligned = true ∧ d.link.downHeld = false ∧ d.link.lostPos.getLsbD 0 = false ∧ d.onRing = true ∧ d.line.band = none ∧
       d.past d.link.tickHeard ms = true) ∧
    (let d : Dev := { strapped 0x0021 with link.aligned := true, line.band := some band1, line.period := 2500 }
     band1.phase = .firing ∧ d.line.band = some band1 ∧ d.past d.link.tickHeard (3 * d.line.period) = true) ∧
    (({ strapped 0x0020 with link.aligned := true } : Dev).pos = 0 ∧ (3 : BitVec 2) ≠ 0) ∧
    (({ strapped 0x0021 with link.skewRun := 3, link.skew := -6 } : Dev).link.skewRun = 3 ∧
      ({ strapped 0x0021 with link.stray := some 300 } : Dev).link.stray = some 300 ∧ (strapped 0x0021).link.skewRun < 3 ∧
      (strapped 0x0021).link.stray = none ∧ (strapped 0x0021).pulseMissing = false) ∧
    (let d : Dev := { strapped 0x0021 with link.tick := some ⟨900000, 0, 2500, false, false, false⟩ }
     d.alive = true ∧ d.pulseMissing = true) ∧
    (let d : Dev := { strapped 0x0004 with sys.ready := false, sys.phase := .almostReady }
     d.role = 1 ∧ d.pers.strapsDone = true ∧ d.clk.clkinOk = true ∧ d.sys.ready = false ∧ d.link.partner = none ∧ d.link.alone = false ∧
       d.link.dissolved = false ∧ d.persError = false) := by
  refine ⟨by decide +kernel, by decide +kernel, by decide +kernel, ⟨by decide +kernel, by decide +kernel, by decide +kernel,
    (0, ⟨3, 0, 0, 0, 0, 0, 0⟩), by decide +kernel, rfl, by decide⟩, by decide +kernel, by decide +kernel, by decide +kernel, by decide +kernel,
    by decide +kernel, by decide +kernel⟩

/-- A formed secondary. -/
def formed2 : Dev := { second with link := { formed := true, driving := false, aligned := true } }

theorem witness_SecondaryAnswers :
    formed2.pairSecondary = true ∧ formed2.operating = true ∧ formed2.alive = true ∧ formed2.link.released = none ∧
    formed2.past formed2.link.lastFrameTs 300 = true ∧
    ({ formed2 with link.lastFrameTs := 999999 } : Dev).past 999999 300 = false ∧
    ({ formed2 with link.released := some 1 } : Dev).link.released ≠ none ∧
    (let w : QWrite := { count := 0, fromLink := true, ts := 0, cells := [] }
     ({ formed2 with link.queue := [w] } : Dev).nextWrite = some w) := by decide +kernel

theorem witness_RecordedFaultsAreOpen : ({ code := cPllUnlock } : Rise).code ≠ cMediaYank ∧ (∀ x ∈ up.flt.active, x.waits = false) ∧ Lvl.device ≠ .port ∧ up.line.band = none ∧
    up.media.move = none ∧ up.media.cut = none ∧ up.mot.travel = .rest ∧ up.sys.faultN = true := by decide +kernel

theorem witness_CheckWordSeesOneByte : (0 : Byte) ≠ 0x80 := by decide

theorem witness_TestPortAnswers : ({ } : Tap).state ≠ .captureIr ∧ ({ state := .captureIr } : Tap).state = .captureIr := by decide

/-! ### CommandsComplete: the window, lines and heads here, then its other groups of clauses -/

theorem witness_CommandsComplete :
    (caRead 0xA00030000001#48 = true ∧ up.answering = .slice ∧ up.caMine 0xA00030000001#48 = true ∧ caDecoded 0xA00030000001#48 = true ∧
      up.link.driving = true ∧ ∀ i, i < 2 * 1 → caByte 0xA00030000001#48 i < 0x400000 ∧ inReserved (caByte 0xA00030000001#48 i) = false) ∧
    (let d := givenSection up
     d.operating = true ∧ d.owns (secAddr 20) = true ∧ d.secOn 20 = false ∧ d.sectionFault 20 = none) ∧
    (let d := ((givenSection up).setSec 20 true).poke (secAddr 20 + 3) [0x5A]
     d.line.band = none ∧ d.mover = none ∧ d.secOn 20 = true ∧ d.ram (secAddr 20 + 3) = 0x5A ∧ d.secNamed 20 = false ∧
       d.followsTable 20 = false) ∧
    (let d := holding (poolBlock 3) [0xD1] { up with win.handed := [3, 4] }
     d.win.handed = 3 :: [4] ∧ d.owns (poolBlock 3) = true ∧ d.sys.ready = true ∧ d.win.gaugeSeq = 0) ∧
    (let e := ticking printing
     printing.operating = true ∧ printing.link.mark = none ∧ printing.link.markAt = none ∧ printing.sys.ready = true ∧ printing.tickNow = some 999999 ∧
       e.lineDue = true ∧ e.framesMissing = false ∧ e.tickKill = none ∧ e.linePending = some pend1 ∧ pend1.complete = true ∧
       e.line.shiftDone = true ∧ e.fireLate = false) ∧
    (let d : Dev := { up with line.sampled := true, line.startTs := some 999999 }
     d.operating = true ∧ d.pairSecondary = false ∧ d.line.sampled = true ∧ d.line.startTs = some 999999 ∧ atOrAfter d.clk.now 999999 = true) ∧
    (({ pend1 with complete := false } : PendLine).complete = false ∧ (up.line.slices.get 0).fenced = false) ∧
    (let d : Dev := { printing with line.shiftDone := false }
     d.operating = true ∧ d.line.band = some band1 ∧ band1.phase = .firing ∧ d.line.shiftDone = false ∧ d.line.fire = none ∧
       d.line.pend = some pend1 ∧ pend1.complete = true ∧ d.line.following = none) ∧
    (firing.operating = true ∧ firing.line.fire = some fire2 ∧ fire2.ended = false ∧ fire2.phases = [] ∧ fire2.slot < fire2.durs.length) ∧
    (let f : FireLine := { fire2 with phases := [[(0, 0)], [(0, 1)]] }
     f.ended = false ∧ f.phase + 1 < f.phases.length) ∧
    (let d : Dev := { up with heads.a.hardTrip := true, heads.a.vhLow := some 0 }
     (d.heads.get 0).hardTrip = true ∧ d.mot.travel = .rest ∧
       (d.onHead 0 fun h => { h with rawTh := 4095 }).tempOf 0 4095 ≤ (d.onHead 0 fun h => { h with rawTh := 4095 }).hardLimit 0 - 80 ∧
       (d.heads.get 0).vhLow = some 0 ∧ d.vhEvaluated = true ∧
       (d.onHead 0 fun h => { h with rawVh := 4095 }).vhMin 0 * 21 ≤ vhOf (4095 : Adc).toNat * 20 ∧ 0 + 1 < 20) := by
  refine ⟨?_, ?_, ?_, ?_, ?_, ?_, ?_, ?_, ?_, ?_, ?_⟩ <;> decide +kernel

theorem witness_CommandsComplete_heads :
    (up.persError = false ∧ up.alive = true ∧ up.portOn 0 = true ∧ (up.heads.get 0).hardTrip = false ∧ (up.heads.get 0).vhHighOn = false) ∧
    (filterNs (up.openInput 0) ≤ (65535#16).toNat ∧ up.openActive 0 true = true ∧ up.awake = true) ∧
    (let d : Dev := { up with heads.a.openPin := true }
     (d.heads.get 0).openPin = true ∧ d.openActive 0 false = false) ∧
    (let t : Taste := { seq := 5, dot := 0 }
     let u : Taste := { t with open16 := (⟨9600, 0, 0, 0⟩ : Quad (BitVec 16)).mapIdx fun _ v => v.toNat }
     (tasting t).operating = true ∧ (tasting t).taste = some t ∧ t.stage = 0 ∧ t.yielding = false ∧ (tasting t).past t.stageTs (2 * ms) = true ∧
       ∀ p ∈ (tasting t).tastePorts u, openOk ((⟨9600, 0, 0, 0⟩ : Quad (BitVec 16)).get p) = true) ∧
    (let t : Taste := { seq := 5, dot := 3, stage := 1, open16 := ⟨9600, 0, 0, 0⟩ }
     let a : Adm := { raw := tasteRec, admitTs := 0, begun := true }
     let x := ((tasting t).tastePorts t).foldl (fun (x : Dev × Taste) (p : Fin 4) => x.1.readDot x.2 p ((Quad.all (4000 : BitVec 16)).get p).toNat) (tasting t, t)
     t.stage = 1 ∧ t.dot % 64 ≠ 0 ∧ (tasting t).past t.stageTs (400 * us) = true ∧ x.1.adm x.2.seq = some a ∧
       x.2.dot + 1 < tFirst a.raw + tCount a.raw ∧ x.2.yielding = false) ∧
    (let t : Taste := { seq := 5, dot := 8, stage := 2, ended := true }
     t.stage = 2 ∧ t.ended = true ∧ (tasting t).past t.stageTs (2 * ms) = true) := by decide +kernel

theorem witness_CommandsComplete_motion :
    (let d : Dev := { up with line.band := some { band1 with phase := .resting }, heads := Quad.all { holdTs := none } }
     d.operating = true ∧ d.bandMayStart { band1 with phase := .resting } = true) ∧
    (up.operating = true ∧ up.pairSecondary = false) ∧
    (let d : Dev := { strapped 0x0100 with clk.now := 10000000, line.band := some band1 }
     d.operating = true ∧ d.tickSource = 1 ∧ d.mot.tickDue = none ∧ band1.phase = .firing ∧ d.bandMoves = true ∧
       atOrAfter d.clk.now (d.line.planned + BitVec.ofNat 48 (100 * ms)) = true) ∧
    (let d : Dev := { up with axes.a.segs := [seg10], axes.a.energised := true }
     d.operating = true ∧ d.axes.a.readyTs = none ∧ d.axes.a.segs = seg10 :: [] ∧ d.line.band = none ∧
       d.come (d.axes.a.segTs + BitVec.ofNat 50 (seg10.stepAt d.axes.a.lastU (d.axes.a.done + 1))) = true) ∧
    (let d : Dev := { up with mot.travel := .planned }
     d.operating = true ∧ d.mot.travel ≠ .rest ∧ d.mot.travel ≠ .stopping ∧ d.axes.a.segs = [] ∧ d.mot.per = 0 ∧ d.mot.tickDue = none) ∧
    (let d : Dev := { up with axes.a.energised := true, axes.a.entry := entry1, axes.a.a.off := 40, pers.axisCfg := ⟨1, 1, 1, 1⟩ }
     let a := d.axes.get 0
     a.energised = true ∧ a.held = false ∧ a.moving = false ∧ a.segs = [] ∧ eRelease a.entry ≠ 65535 ∧ d.past a.restTs (eRelease a.entry * ms) = true ∧
       d.groupHeld = false ∧ d.pers.axisCfg.get 0 ≠ 2 ∧ d.mot.auxBrake = false ∧ (a.wind false).on = false ∧ (a.wind false).off ≤ (40#32).toNat ∧
       d.justOn 0 false = false) ∧
    (let d : Dev := { up with mot.auxBrake := true }
     d.operating = true ∧ d.mot.auxBrake = true ∧ d.past d.axes.d.restTs (20 * ms) = true) ∧
    (let d : Dev := { up with clk.now := 2000000, axes.d.entry := [0, 0, 0, 128, 0, 0, 0, 0, 0, 0, 0, 2], mot.auxTarget := some 100, pers.axisCfg := ⟨0, 0, 0, 2⟩ }
     d.operating = true ∧ d.auxDc = true ∧ d.mot.auxTarget ≠ none ∧ d.mot.auxBrake = false ∧ d.past d.mot.auxTs (50 * ms) = true ∧
       eJamOn d.axes.d.entry = true ∧ d.mot.auxCounts = [] ∧ eJam d.axes.d.entry ≠ 0) := by decide +kernel

theorem witness_CommandsComplete_media :
    (let d := media0 { up with media.paperOut := true, sense.b.mediaTs := some 0, clk.now := 20000000 }
     d.operating = true ∧ d.media.paperOut = true ∧ d.media.cover = false ∧
       (∀ c : Fin 8, mRole d.curMedia c.val = 4 → d.past 0 (500 * ms) = true ∧ (d.sense.get c).mediaTs = some 0)) ∧
    (let m : Move := { seq := 5, startPos := -64, goal := 999999, fwd := true }
     let a : Adm := { raw := learnRec, admitTs := 0, begun := true }
     let d : Dev := { up with media.move := some m, rings.admitted := [a] }
     d.operating = true ∧ d.learning = some (m, a) ∧ m.ranged = false ∧ rDist a.raw ≤ 4 * (d.samplePos (tens d.clk.now) - m.startPos)) ∧
    (let c : CutRt := { seq := 5, step := .homing, startPos := 0 }
     let d : Dev := { up with media.cut := some c }
     d.operating = true ∧ d.media.cut = some c ∧ d.cutLate c = true) ∧
    (let d := media0 up
     d.awake = true ∧ d.pairSecondary = false ∧ mCpl d.curMedia ≠ 0 ∧ mYank d.curMedia ≠ 0 ∧ ({ d with mot.yankTs := 999999 } : Dev).past 999999 (2 * ms) = false ∧
       d.mot.encHist = [] ∧ d.clk.now.toNat % 250 = 0 ∧ d.roundOverlaps = false) ∧
    (up.alive = true ∧ up.awake = true ∧ filterNs (mCover up.curMedia) ≤ (65535#16).toNat ∧ true = !(bit (mCover up.curMedia) 0)) ∧
    (let d : Dev := { up with media.cover := true }
     d.media.cover = true ∧ false = bit (mCover d.curMedia) 0) := by decide +kernel

theorem witness_CommandsComplete_solenoids :
    (let d : Dev := { up with solx.runs := [run2], sol.c := { owner := some 9 }, pers.sets := List.replicate 12 { state := 5 } }
     d.run 9 = some run2 ∧ d.awake = true ∧ d.mayPulse run2 = true ∧ d.media.cut = none ∧ run2.begun = true) ∧
    (let r : SolRun := { run2 with begun := false, deadline := some 999999 }
     let d : Dev := { up with solx.runs := [r] }
     d.run 9 = some r ∧ d.operating = true ∧ r.begun = false ∧ atOrAfter d.clk.now 999999 = true ∧ d.clk.now ≠ 999999) ∧
    (let d := pulsing .peak
     d.operating = true ∧ d.awake = true ∧ d.runOn 2 = some run2 ∧ (d.sol.get run2.ch).phase = .peak ∧
       d.past (d.sol.get run2.ch).phaseTs (run2.peakMax * hundred) = true ∧ run2.hold ≠ 0 ∧ ((d.endPeak run2).sol.get run2.ch).phase ≠ .released ∧
       (d.sol.get run2.ch).strong = false ∧ d.past (d.sol.get run2.ch).phaseTs (min (2 * ms) (run2.peakMax * hundred)) = true) ∧
    (let d := pulsing .hold
     (d.sol.get run2.ch).phase = .hold ∧ d.past (d.sol.get run2.ch).phaseTs (run2.holdTime * hundred) = true) ∧
    (let d := pulsing .released
     d.media.cut = none ∧ (∀ k ∈ run2.chans, (d.sol.get k).phase = .released ∧ d.past (d.sol.get k).relTs (100 * us) = true ∧ (d.sol.get k).belowTs = none) ∧
       run2.stop = none ∧ run2.index + 1 < run2.count) ∧
    (let d : Dev := { up with sol.c := { owner := some 9, phase := .peak, regulating := true } }
     d.awake = true ∧ (d.sol.get 2).phase = .peak ∧ (d.sol.get 2).regulating = true ∧ (d.sol.get 2).seated = none ∧ (d.sol.get 2).windows = 0 ∧
       d.past (d.sol.get 2).regTs (200 * us) = true) ∧
    (up.operating = true ∧ up.pairSecondary = false ∧ ∀ c : Fin 8, (up.sol.get c).owner = none ∧ (up.sol.get c).hotPosted = false) ∧
    (let x : Sol := { owner := some 9 }
     let d : Dev := { up with pers.sets := List.replicate 12 { state := 5 }, clk.now := 20000000, sol := ⟨x, x, x, x, x, x, x, {}⟩ }
     d.alive = true ∧ d.awake = true ∧ d.noSolenoids = false ∧ d.clk.now.toNat % 2500000 = 0 ∧ (d.sol.get 7).owner = none ∧ d.solx.hs.get 3 = false ∧
       d.past (d.solx.hsTs.get 3) (1 * ms) = true ∧ d.solx.fenced.get 3 = false ∧ (∀ c : Fin 8, c ≠ 7 → (d.sol.get c).owner ≠ none) ∧
       shuntOf (0 : Adc).toNat < d.capSixteenth ∧ (d.sol.get 7).gate = false ∧ d.runOn 7 = none ∧ d.solx.fenced.get (pairOf 7) = false ∧
       d.solx.runs = [] ∧ ∀ c : Fin 8, (d.sol.get c).phase = .idle) := by
  refine ⟨?_, ?_, ?_, ?_, ?_, ?_, ?_, ?_⟩ <;> decide +kernel

theorem witness_CommandsComplete_serial :
    (let d : Dev := { strapped 0x0800 with uart.opened := true, uart.rate := 115200 }
     d.framing = true ∧ 50000000 * 11 ≤ (4800#32).toNat * d.uart.rate ∧ d.uart.opened = true ∧ d.received (wire writeFrame1) = writeFrame1 ∧
       (frameOf writeFrame1).len = some 1 ∧ (frameOf writeFrame1).bytes.length = (frameOf writeFrame1).whole ∧ d.received (wire pollFrame) = pollFrame ∧
       (frameOf pollFrame).len = some 0 ∧ (frameOf pollFrame).bytes.length = (frameOf pollFrame).whole) ∧
    (let d : Dev := { strapped 0x0800 with uart.opened := true, uart.rate := 115200 }
     let f : UFrame := { chars := [ch 0x55, ch (pidOf 8)] }
     d.received (wire f) = f ∧ d.uartMode = 2 ∧ d.sys.sleep = .awake ∧ (charBytes f).getD 0 0 = 0x55 ∧ 2 ≤ f.chars.length ∧
       pidOk ((charBytes f).getD 1 0) = true ∧ d.accepts ((charBytes f).getD 1 0) = true ∧ 50000000 * 16 < (7000#32).toNat * d.uart.rate) ∧
    (let d : Dev := { strapped 0x0400 with uart.replies := [([1], false)] }
     d.streaming = true ∧ d.received (wire writeUnit1) = writeUnit1 ∧ (unitOf writeUnit1).bytes.getD 0 0 = 0x55 ∧
       (unitOf writeUnit1).bytes.length = (unitOf writeUnit1).whole ∧ (unitOf writeUnit1).len = some 1 ∧ d.received (wire pollUnit) = pollUnit ∧
       (unitOf pollUnit).len = some 0 ∧ (unitOf pollUnit).bytes.length = (unitOf pollUnit).whole) ∧
    (let d : Dev := { strapped 0x0400 with uart.replies := [([1], false)] }
     rxChar d.uartFormat (onLine 0x12) = some (ch 0x12) ∧
       d.hears = true ∧ d.uartMode ≠ 0 ∧ d.uart.held = false ∧ d.sys.sleep ≠ .dormant ∧ d.uart.rxUnits = [] ∧ d.uart.xoffSent = false ∧
       d.uart.replies = ([1], false) :: []) := by
  refine ⟨?_, ?_, ?_, ?_⟩ <;> decide +kernel

theorem witness_CommandsComplete_cellar :
    (250 ≤ (250#32).toNat ∧ up.sys.ready = true ∧ up.awake = true ∧ up.factoryOnly = false ∧ up.cel.store = none ∧ up.measuring = false ∧
      up.cel.pulseHeld = false ∧ up.operating = true) ∧
    ((storeAt 1 236).suspended = none ∧ (storeAt 1 236).sector < 237 ∧ (storeAt 2 117).step = 2 ∧ (storeAt 2 117).sector < 118 ∧ (storeAt 4 0).step = 4) ∧
    (let st : Store := { storeAt 2 0 with suspended := some 0 }
     let d : Dev := { up with clk.now := 500000000, cel.store := some st }
     d.operating = true ∧ d.cel.store = some st ∧ st.suspended = some 0 ∧ st.starved = false ∧ d.past 0 (10000 * ms) = true ∧
       d.readUnderWay = false ∧ d.onFallback = false ∧ d.printing = false) ∧
    (let a : Adm := { raw := sealedRec 0x50 5, admitTs := 0 }
     let d : Dev := { up with cel.reads := [(5, 0)], rings.admitted := [a] }
     d.operating = true ∧ d.role = 0 ∧ d.cel.reads = [(5, 0)] ∧ d.readRecord 0 ≠ .wait ∧ d.adm 5 = some a) := by decide +kernel

theorem bankState_store (c : Cellar) (x : Option Store) (b : Bool) : ({ c with store := x } : Cellar).bankState b = c.bankState b := rfl

/-- The clause of CommandsComplete in which a store's bank verifies. -/
theorem witness_CommandsComplete_store :
    ({ cellar1 with store := some (storeAt 4 0) } : Cellar).store = some (storeAt 4 0) ∧
    ({ cellar1 with store := some (storeAt 4 0) } : Cellar).bankState (storeAt 4 0).bankB = none :=
  ⟨rfl, (bankState_store cellar1 _ _).trans witness_StoreCompletes⟩

theorem witness_CommandsComplete_clocks :
    (let d := booting .vintage
     d.clk.clkinOk = true ∧ d.clk.pllOn = true ∧ d.clk.locked = true ∧ d.sys.ready = false ∧ d.clk.core.src = .pll ∧ d.alive = false ∧
       d.sys.phase ≠ .personalityError) ∧
    (let d : Dev := { up with clk.locked := false, clk.unlockTs := some 0 }
     d.clk.clkinOk = true ∧ d.clk.pllOn = true ∧ d.clk.locked = false ∧ d.clk.unlockTs = some 0 ∧ d.clk.unlockLate = false ∧ d.past 0 (1 * ms) = true ∧
       d.alive = true) ∧
    (let d : Dev := { up with clk.adc := ⟨.fallback, 256, 4000, 8000, 3, .pll⟩ }
     (d.clk.dom .adc).step < 8 ∧ ({ d with clk := d.clk.setDom .adc (d.clk.dom .adc).step1 } : Dev).domainsBack = false) ∧
    (up.sys.sleepIgnored = false ∧ up.sys.sleepPin = false ∧ up.sys.sleep = .awake) ∧
    (let d : Dev := { booting .noClock with clk.clkinOk := false }
     d.clk.clkinOk = false ∧ d.sys.phase = .noClock ∧ d.pers.strapsDone = true) ∧
    (({ up with sys.sleepPin := true } : Dev).mayDoze = true ∧ up.pairSecondary = false) ∧
    (let d : Dev := { up with clk.now := 500000000, sys.sleep := .doze, sys.sleepPin := true }
     d.sys.sleep = .doze ∧ d.alive = true ∧ d.sys.sleepPin = true ∧ d.past d.sys.dozeTs (10000 * ms) = true ∧ d.mode = 0 ∧ d.sys.wakeCause = none) ∧
    (let d : Dev := { up with clk.now := 10000000, flt.active := [oldReact .stopPort] }
     d.operating = true ∧ d.sys.ready = true ∧ d.stepCounts .gaugeWriter = true ∧ d.portOn 0 = true ∧ (d.heads.get 0).holdTs = some 0 ∧
       d.past 0 (20 * ms) = true ∧ d.flt.active.find? (fun r => r.sev == .stopPort && r.port == (0 : Fin 4).val && d.mayEnd r) = some (oldReact .stopPort) ∧
       d.flt.active.find? (fun r => r.seq == 7 && d.mayEnd r) = some (oldReact .stopPort) ∧ d.sys.sleep = .awake) := by decide +kernel

theorem witness_CommandsComplete_link :
    (let d : Dev := { strapped 0x0004 with link.aligned := true }
     let f := link1 0x10 1 0 []
     d.linkLive = true ∧ d.link.aligned = true ∧ le f.bytes 0 1 = 0x10 ∧ le f.bytes 1 1 ≠ d.node ∧ f.intact = true ∧ frameGood f.bytes = true ∧
       le f.bytes 2 1 = d.node ∧ d.link.seen.contains (f.bytes.getD 1 0, f.bytes.getD 3 0) = false) ∧
    (let d : Dev := { strapped 0x0004 with link.flights := [⟨frameBytes 0x10 0 0xFF 3 0 0 [], 2, 0⟩] }
     d.linkLive = true ∧ d.link.aligned = false ∧ d.mayMark = false ∧ d.link.flights = [⟨frameBytes 0x10 0 0xFF 3 0 0 [], 2, 0⟩] ∧
       d.frameLate (frameBytes 0x10 0 0xFF 3 0 0 []) = false ∧ d.past 0 (ceilDiv (d.tRing + 40) 4) = true) ∧
    (let d : Dev := { strapped 0x0010 with link.aligned := true }
     d.linkLive = true ∧ d.link.aligned = true ∧ d.alive = true ∧ d.mode ≠ 0 ∧ d.link.formed = false ∧ d.link.downHeld = false ∧ d.pos = 0 ∧
       (3 : BitVec 2) ≠ 0 ∧ d.link.lostPos.getLsbD 3 = false) ∧
    (let d : Dev := { strapped 0x0011 with link.aligned := true, link.downHeld := true, link.nodes := [(0, ⟨3, 0, 0, 0, 0, 0, 0⟩)] }
     d.alive = true ∧ d.link.aligned = true ∧ d.link.downHeld = true ∧ d.link.joined = true ∧ d.past d.link.alignTs (10 * ms) = true ∧
       ∀ n ∈ d.link.nodes, n.2.state = 3 ∧ n.1 / 2 = 0) ∧
    (({ strapped 0x0021 with link.skewRun := 3 } : Dev).alive = true ∧ 3 ≤ ({ strapped 0x0021 with link.skewRun := 3 } : Dev).link.skewRun) ∧
    (let w : QWrite := { count := 0, fromLink := true, ts := 0, cells := [] }
     let d : Dev := { formed2 with link.queue := [w], link.released := some 1 }
     d.alive = true ∧ d.pairSecondary = true ∧ d.link.released ≠ none ∧ d.operating = true ∧ d.nextWrite = some w) ∧
    (let d := strapped 0x0021
     2 ≤ d.mode ∧ d.pos ≠ 0 ∧ d.pers.valid = true ∧ d.persError = false ∧ d.clk.clkinOk = true ∧ d.link.joined = true) ∧
    (let d : Dev := { strapped 0x0004 with sys.ready := false, sys.phase := .almostReady }
     d.role = 1 ∧ d.pers.strapsDone = true ∧ d.clk.clkinOk = true ∧ d.sys.ready = false ∧ d.link.partner = none ∧ d.link.alone = false ∧
       d.link.dissolved = false ∧ d.persError = false) := by decide +kernel

end Sys2Proof.Tests
end

section
/-! The levels of the strap pins (R47): bit i of the masks that `decideStraps` forms from a round's two readings is the class of
pin i in that round, and bit i of their majority is the vote of three rounds on that class. -/

namespace Sys2Proof.Machine

/-- The pins that one round puts into class c, as `decideStraps` reads them. -/
def strapMask (c : StrapClass) (r : BitVec 16 × BitVec 16) : BitVec 16 :=
  match c with
  | .low => ~~~ r.1 &&& ~~~ r.2
  | .high => r.1 &&& r.2
  | .float => r.1 &&& ~~~ r.2

/-- The pins whose level is class c by three rounds. -/
def strapLevel (c : StrapClass) (r0 r1 r2 : BitVec 16 × BitVec 16) : BitVec 16 :=
  majority fun k => strapMask c ([r0, r1, r2].getD k.val (0, 0))

theorem decideStraps_high (p : Pers) (r0 r1 r2 : BitVec 16 × BitVec 16) :
    (p.decideStraps [r0, r1, r2]).high = strapLevel .high r0 r1 r2 := rfl

theorem decideStraps_float (p : Pers) (r0 r1 r2 : BitVec 16 × BitVec 16) :
    (p.decideStraps [r0, r1, r2]).float = strapLevel .float r0 r1 r2 := rfl

theorem decideStraps_undecided (p : Pers) (r0 r1 r2 : BitVec 16 × BitVec 16) :
    (p.decideStraps [r0, r1, r2]).undecided =
      ~~~ (strapLevel .high r0 r1 r2 ||| strapLevel .float r0 r1 r2 ||| strapLevel .low r0 r1 r2) := rfl

theorem getLsbD_strapMask (c : StrapClass) (r : BitVec 16 × BitVec 16) {i : Nat} (hi : i < 16) :
    (strapMask c r).getLsbD i = (strapClass r i == some c) := by
  cases c <;>
    simp only [strapMask, strapClass, BitVec.getLsbD_and, BitVec.getLsbD_not, hi, decide_true, Bool.true_and] <;>
    cases r.1.getLsbD i <;> cases r.2.getLsbD i <;> rfl

theorem two_le_length_filter_three {α : Type} (q : α → Bool) (a b c : α) :
    2 ≤ ([a, b, c].filter q).length ↔ (q a && q b || q b && q c || q a && q c) = true := by
  cases ha : q a <;> cases hb : q b <;> cases hc : q c <;> simp [ha, hb, hc]

/-- R47: a pin's level is class c when at least two of the three rounds put it there. -/
theorem getLsbD_strapLevel_iff (c : StrapClass) (r0 r1 r2 : BitVec 16 × BitVec 16) {i : Nat} (hi : i < 16) :
    (strapLevel c r0 r1 r2).getLsbD i = true ↔ 2 ≤ strapVotes r0 r1 r2 i c := by
  rw [strapVotes, two_le_length_filter_three]
  simp only [← getLsbD_strapMask c _ hi, strapLevel, majority, BitVec.getLsbD_or, BitVec.getLsbD_and]
  rfl

/-- Settles O13: each decided level is the majority of its class, and the undecided pins are the rest. -/
theorem strapLevelIsTheMajority : Obligations.StrapLevelIsTheMajority := by
  intro p r0 r1 r2 i hi
  have level (c : StrapClass) := getLsbD_strapLevel_iff c r0 r1 r2 hi
  refine ⟨?high, ?float, ?undecided⟩
  case high => rw [decideStraps_high, level]
  case float => rw [decideStraps_float, level]
  case undecided =>
    have noLevel (c : StrapClass) : (strapLevel c r0 r1 r2).getLsbD i = false ↔ strapVotes r0 r1 r2 i c < 2 := by
      rw [← Bool.not_eq_true, level, Nat.not_le]
    simp only [decideStraps_undecided, BitVec.getLsbD_not, BitVec.getLsbD_or, hi, decide_true, Bool.true_and,
      Bool.not_eq_true', Bool.or_eq_false_iff, noLevel]
    exact and_comm

end Sys2Proof.Machine
end

section
/-! Handing a structure back (R99): what its owner byte and every other byte of the window read afterwards. -/

namespace Sys2Proof.Machine

theorem Dev.owns_iff (d : Dev) (a : Nat) : d.owns a = true ↔ d.ram a = 0xD1 := by
  rw [Dev.owns, beq_iff_eq]

/-- The change that `handBack` notes for the link leaves the window alone, so the window reads as after the one write. -/
theorem Dev.ram_handBack (d : Dev) (a b : Nat) : (d.handBack a).ram b = (d.poke a [0]).ram b := by
  simp only [Dev.ram, Dev.handBack_win]

theorem Dev.ram_handBack_self (d : Dev) {a : Nat} (ha : a < 0x400000) (hm : Memory.wf d.win.mem = true) :
    (d.handBack a).ram a = 0 := by
  rw [Dev.ram_handBack, Dev.ram_poke_self d a 0 ha hm]

theorem Dev.ram_handBack_ne (d : Dev) {a b : Nat} (hb : b ≠ a) (hm : Memory.wf d.win.mem = true) :
    (d.handBack a).ram b = d.ram b := by
  rw [Dev.ram_handBack, Dev.ram_poke_ne d a b 0 hb hm]

theorem Dev.owns_handBack_self (d : Dev) {a : Nat} (ha : a < 0x400000) (hm : Memory.wf d.win.mem = true) :
    (d.handBack a).owns a = false := by
  rw [Dev.owns, Dev.ram_handBack_self d ha hm]
  decide

/-- Settles O22: handing back is one write of 0x00, which reads back at the owner byte and leaves every other byte. -/
theorem handBackWritesOwnerByte : Obligations.HandBackWritesOwnerByte := by
  intro d a ha hm
  exact ⟨d.owns_iff a, d.ram_handBack_self ha hm, d.owns_handBack_self ha hm, fun b hb => d.ram_handBack_ne hb hm⟩

end Sys2Proof.Machine
end

section
/-! The levels of pixels (R164) and the decay of a dot's or a block's state (R218). -/

namespace Sys2Proof.Machine

/-! The three columns of R164's table, each for every pixel value. -/

@[simp] theorem levelOf_one (v : Nat) : levelOf 1 v = 15 * v := rfl

@[simp] theorem levelOf_two (v : Nat) : levelOf 2 v = 5 * v := rfl

@[simp] theorem levelOf_four (v : Nat) : levelOf 4 v = v := rfl

/-- A retention of 4,096 keeps the state. -/
@[simp] theorem decayed_full (th : Nat) : decayed 4096 th = th := if_pos rfl

/-- The model divides by 4,096 where R218 shifts right by 12. -/
theorem decayed_of_ne {r : Nat} (hr : r ≠ 4096) (th : Nat) : decayed r th = (th * r + 2048) >>> 12 := by
  rw [decayed, if_neg hr, Nat.shiftRight_eq_div_pow]

/-- Settles O31: the table of R164 column by column, and the two cases of R218 by the retention. -/
theorem pixelLevelsAndDecay : Obligations.PixelLevelsAndDecay := by
  refine ⟨⟨?oneBit, ?twoBits, ?fourBits⟩, fun r th => ⟨?kept, fun hr => decayed_of_ne hr th⟩⟩
  case oneBit => simp only [levelOf_one, Nat.reduceMul, and_self]
  case twoBits => simp only [levelOf_two, Nat.reduceMul, and_self]
  case fourBits => exact fun v _ => levelOf_four v
  case kept =>
    rintro rfl
    exact decayed_full th

end Sys2Proof.Machine
end

section
/-! One dot's update (R215 to R231): the fields of the word it writes (R196), and what it answers for a dot that is off and for
a dot that fires. -/

namespace Sys2Proof.Machine

theorem unsigned_eight (c : Int) : unsigned 8 c = (c % 256).toNat := rfl

theorem unsigned_eight_lt (c : Int) : unsigned 8 c < 256 := by
  rw [unsigned_eight]
  omega

theorem signed_eight (v : Nat) : signed 8 v = if v % 256 < 128 then ((v % 256 : Nat) : Int) else ((v % 256 : Nat) : Int) - 256 := rfl

/-- A signed byte is read back from its code (R4). -/
theorem signed_unsigned_eight {c : Int} (hlo : -128 ≤ c) (hhi : c ≤ 127) : signed 8 (unsigned 8 c) = c := by
  rw [signed_eight, unsigned_eight]
  split <;> omega

theorem le_clampI {lo hi : Int} (h : lo ≤ hi) (x : Int) : lo ≤ clampI lo hi x :=
  Int.le_min.mpr ⟨Int.le_max_right x lo, h⟩

theorem clampI_le (lo hi x : Int) : clampI lo hi x ≤ hi := Int.min_le_right _ _

/-- The fields of R196 fill their places: none reaches into the next. -/
theorem toNat_mkWord (s : Nat) (c : Int) (r : Nat) :
    (mkWord s c r).toNat = s % 4096 + 4096 * unsigned 8 c + 1048576 * (r % 4096) := by
  have hc := unsigned_eight_lt c
  rw [mkWord, BitVec.toNat_ofNat]
  exact Nat.mod_eq_of_lt (by omega)

theorem wState_mkWord {s : Nat} (hs : s ≤ 4095) (c : Int) (r : Nat) : wState (mkWord s c r) = s := by
  simp only [wState, bits, toNat_mkWord, Nat.reducePow, Nat.reduceAdd, Nat.reduceSub]
  omega

theorem wCarry_mkWord (s : Nat) {c : Int} (hlo : -128 ≤ c) (hhi : c ≤ 127) (r : Nat) : wCarry (mkWord s c r) = c := by
  have field : bits (mkWord s c r).toNat 19 12 = unsigned 8 c := by
    have hc := unsigned_eight_lt c
    simp only [bits, toNat_mkWord, Nat.reducePow, Nat.reduceAdd, Nat.reduceSub]
    omega
  rw [wCarry, field, signed_unsigned_eight hlo hhi]

/-- θ_lat: the dot's decayed state and what its neighbours give it (R219, R220). -/
def latState (p : Plan) (lo thd hi : Nat) : Nat :=
  (clampI 0 4095 (thd + ((p.lateral : Int) * ((lo : Int) + hi - 2 * thd)) / 256)).toNat

theorem latState_le (p : Plan) (lo thd hi : Nat) : latState p lo thd hi ≤ 4095 :=
  Int.toNat_le.mpr (clampI_le 0 4095 _)

namespace PortFigs

/-- R: the dot's measured resistance, or the port's nominal one (R197). -/
def resistance (g : PortFigs) (w : BitVec 32) : Nat := if wRes w = 0 then g.rNom else wRes w

/-- E_c: the target corrected by the total excess (R222, R223). -/
def corrected (g : PortFigs) (thl sdec et : Nat) : Nat :=
  min (et * corrF g.q (clampI (-2048) 2047 (g.thx + (sdec / 16 : Nat) + thl)) / 2048) 4095

theorem corrected_zero (g : PortFigs) (thl sdec : Nat) : g.corrected thl sdec 0 = 0 := by
  rw [corrected, Nat.zero_mul, Nat.zero_div, Nat.zero_min]

/-- E_fin: the corrected energy under the ceiling (R224). -/
def final (g : PortFigs) (thl sdec et : Nat) : Nat := min (g.corrected thl sdec et) g.ceil

/-- t: the on-time of a dot (R227). -/
def onTime (g : PortFigs) (w : BitVec 32) (thl sdec et : Nat) : Nat :=
  scaleE g.km g.ksh (g.final thl sdec et) (g.resistance w)

/-- The selection of R228 for a dot that fires: what remains, the achieved time and the slots. -/
def selection (g : PortFigs) (w : BitVec 32) (carry : Int) (thl sdec et cls : Nat) : Int × Nat × Nat :=
  selectSlots g.plan.dur (g.plan.mask.getD cls 0) (scaleE g.km g.ksh g.ceil (g.resistance w)) (g.plan.greedy.take g.plan.s)
    (max ((g.onTime w thl sdec et : Int) + carry * (2 ^ g.plan.carryShift : Nat)) 0) 0 0

/-- h: half a unit of the carry (R229). -/
def halfUnit (g : PortFigs) : Int := if g.plan.carryShift = 0 then 0 else (2 ^ (g.plan.carryShift - 1) : Nat)

theorem halfUnit_eq (g : PortFigs) :
    g.halfUnit = ((if g.plan.carryShift = 0 then 0 else 2 ^ (g.plan.carryShift - 1) : Nat) : Int) := by
  rw [halfUnit]
  split <;> rfl

/-- The carry that what remains leaves, rounded and bounded (R229). -/
def newCarry (g : PortFigs) (rem : Int) : Int :=
  clampI (-128) 127 ((rem + g.halfUnit) / (2 ^ g.plan.carryShift : Nat))

/-- E_a: the energy delivered in the achieved time (R231). -/
def delivered (g : PortFigs) (w : BitVec 32) (thl sdec et ta : Nat) : Nat :=
  min (g.final thl sdec et * ta / g.onTime w thl sdec et) g.ceil

/-- The state of a dot after the heat of an energy (R231). -/
def heated (g : PortFigs) (thl ea : Nat) : Nat := min (thl + ea * g.plan.heatGain / 256) 4095

/-- What a dot that fires answers, from its selection (R228 to R231, R236). -/
def fired (g : PortFigs) (w : BitVec 32) (thl sdec et : Nat) : Int × Nat × Nat → DotOut
  | (rem, ta, sel) =>
    { word := mkWord (g.heated thl (g.delivered w thl sdec et ta)) (g.newCarry rem) (wRes w), sel,
      ea := g.delivered w thl sdec et ta, trimmed := decide (g.ceil < g.corrected thl sdec et),
      saturated := decide (4095 < thl + g.delivered w thl sdec et ta * g.plan.heatGain / 256) }

end PortFigs

/-- The update by its two cases: a dot that has no target or no on-time is off and takes θ_lat alone; any other fires the slots
selected for it. -/
theorem dotUpdate_eq (g : PortFigs) (w : BitVec 32) (carry : Int) (lo thd hi sdec et cls : Nat) {thl : Nat}
    (hthl : thl = latState g.plan lo thd hi) :
    dotUpdate g w carry lo thd hi sdec et cls =
      if et = 0 ∨ g.onTime w thl sdec et = 0 then
        { word := mkWord thl 0 (wRes w), trimmed := decide (g.ceil < g.corrected thl sdec et) }
      else g.fired w thl sdec et (g.selection w carry thl sdec et cls) := by
  subst hthl
  by_cases het : et = 0
  · rw [if_pos (.inl het), het, g.corrected_zero]
    rfl
  · by_cases ht : g.onTime w (latState g.plan lo thd hi) sdec et = 0
    · rw [if_pos (.inr ht)]
      exact (if_neg het).trans (if_pos ht)
    · rw [if_neg (not_or.mpr ⟨het, ht⟩)]
      exact (if_neg het).trans (if_neg ht)

/-- Settles O33: the update of a dot that is off, and that of a dot that fires, each read field by field from its word. -/
theorem dotUpdateByTheRules : Obligations.DotUpdateByTheRules := by
  rintro g w carry lo thd hi sdec et cls _ _ _ _ _ _ _ o rfl rfl rfl rfl rfl rfl rfl rfl
  have update := dotUpdate_eq g w carry lo thd hi sdec et cls rfl
  refine ⟨fun hoff => ?off, fun het ht rem ta sel h hsel hh => ?fires⟩
  case off =>
    rw [update.trans (if_pos hoff)]
    exact ⟨wState_mkWord (latState_le ..) .., wCarry_mkWord _ (by decide) (by decide) _, rfl, rfl⟩
  case fires =>
    have hsel : g.selection w carry (latState g.plan lo thd hi) sdec et cls = (rem, ta, sel) := hsel
    obtain rfl : h = g.halfUnit := hh.trans g.halfUnit_eq.symm
    rw [update.trans (if_neg (not_or.mpr ⟨het, ht⟩)), hsel]
    exact ⟨rfl, wCarry_mkWord _ (le_clampI (by decide) _) (clampI_le ..) _, rfl, wState_mkWord (Nat.min_le_right ..) ..⟩

end Sys2Proof.Machine
end

section
/-! Steps and runs: what every command leaves of the state around the device, and what follows for runs of steps. -/

namespace Sys2Proof.Machine

/-! ## One command -/

/-- What a command does to the device, before what every command ends with. -/
def effect (c : Instr) (d : Dev) : Dev :=
  match c with
  | .powerOnReset => powerOnReset d
  | .resetN => resetN d
  | .strapRound up down => strapRound up down d
  | .pllLock => pllLock d
  | .setPinMeasure codes sense => setPinMeasure codes sense d
  | .headCardReadDone p image => headCardReadDone p image d
  | .cardImageTimeout => cardImageTimeout d
  | .vintageSelectionDone => vintageDone d
  | .pressSelfTestDone pass margin => pressSelfTest pass margin d
  | .readyRise cover opens => readyRise cover opens d
  | .xspiRead ca caDone words => xspiRead ca caDone words d
  | .xspiWrite ca caDone data => xspiWrite ca caDone data d
  | .jobSlotExamine => jobSlotExamine d
  | .note => admitType 0x00 d
  | .band => admitType 0x10 d
  | .feed => admitType 0x20 d
  | .backfeed => admitType 0x21 d
  | .seekMark => admitType 0x22 d
  | .cut => admitType 0x30 d
  | .solenoid => admitType 0x40 d
  | .adoptProfile => admitType 0x50 d
  | .learnMedia => admitType 0x60 d
  | .tasteHead => admitType 0x61 d
  | .barrier => admitType 0x70 d
  | .profileSectionHandover sec => sectionHandover sec.val d
  | .sectionRelease sec => sectionRelease sec.val d
  | .blockCheck => blockCheck d
  | .statusWrite => statusWrite d
  | .gaugeFrameWrite => gaugeWrite d
  | .lineTick fine => lineTick fine d
  | .sampleSetComplete set => sampleSet set d
  | .pressLineComplete cmp => pressDone cmp d
  | .sliceParityError k => sliceParity k d
  | .planeShiftStart rb => planeShift rb d
  | .slotTransfer rb => slotTransfer rb d
  | .phaseBoundary => phaseBoundary d
  | .strobeGuard p g => strobeGuard p g d
  | .strobeStuck p g => strobeStuck p g d
  | .headOvertempHard p => overtempHard p d
  | .hardLimitRecheck p code => hardRecheck p code d
  | .vhLowRecheck p code => vhRecheck p code d
  | .vhHigh p code => vhHigh p code d
  | .headOpen p high ns => headOpen p high ns d
  | .headOpenClear p high => headOpenClear p high d
  | .tasteSetupDone sums => tasteSetup sums d
  | .tasteDotDone sums reopen => tasteDotDone sums reopen d
  | .tasteReleaseDone => tasteReleaseDone d
  | .startSampleSetDone set => startSet set d
  | .bandResume => bandResume d
  | .encoderCount up => encoderCount up d
  | .tickStalled => tickStalled d
  | .motorStep ax => motorStep ax d
  | .mediaRest => mediaRest d
  | .axisRelease ax => axisRelease ax d
  | .chopperPhaseEnd c len => chopperPhase c len.toNat d
  | .axisOvercurrent ax b mv => axisOvercurrent ax b mv d
  | .aencCount up => aencCount up d
  | .dcBrakeEnd => dcBrakeEnd d
  | .dcJamCheck => dcJamCheck d
  | .yankCheck => yankCheck d
  | .sensorRound ms => sensorRound ms d
  | .paperOutClear => paperOutClear d
  | .coverOpen high ns => coverOpen high ns d
  | .coverClear high => coverClear high d
  | .learnRangeEnd => learnRangeEnd d
  | .cutterJam => cutterJam d
  | .pulseStart seq => pulseStart seq d
  | .solenoidDeadline seq => solenoidDeadline seq d
  | .adcbSample sc vbst => adcbSample sc vbst d
  | .onShareWindow ch => onShare ch d
  | .peakEnd ch => peakEnd ch d
  | .holdEnd ch => holdEnd ch d
  | .channelOff ch => channelOff ch d
  | .coilModelUpdate => coilModels d
  | .coilOpen ch => coilOpen ch d
  | .coilShortSupply ch reading => shortSupply ch reading.toNat d
  | .coilIdleTest readings => idleTest readings d
  | .boostOvervolt code => boostOvervolt code d
  | .uartBreak clocks => uartBreak clocks.toNat d
  | .uartWriteFrame f => uartWriteFrame (d.received f) d
  | .uartPoll f => uartPoll (d.received f) d
  | .streamWriteUnit f => streamWriteUnit (d.received f) d
  | .streamPollUnit f => streamPollUnit (d.received f) d
  | .streamStrayChar c => streamStray (rxChar d.uartFormat c) d
  | .xon => xonTaken d
  | .xoff => xoffTaken d
  | .uartTimeout f clocks => uartTimeout (d.received f) clocks.toNat d
  | .uartReply => uartReply d
  | .corkPulse low high => corkPulse low.toNat high.toNat d
  | .cellarEraseDone ok => eraseDone ok d
  | .cellarProgramDone ok => programDone ok d
  | .storeComplete => storeComplete d
  | .storeResume => storeResume d
  | .storeStarved => storeStarved d
  | .cellarReadDone => cellarReadDone d
  | .pllUnlock => pllUnlock d
  | .pllRelockTimeout => pllTimeout d
  | .rampStep x => rampStep x d
  | .clkForced x => clkForced x d
  | .clkinLost => clkinLost d
  | .clkinRestored => clkinRestored d
  | .seqWatchdog q step => seqWatchdog q step d
  | .firingHoldEnd p set => firingHoldEnd p set d
  | .portReset p => portReset p d
  | .reactionEnd seq => reactionEnd seq d
  | .delayMonitor margin => delayMonitor margin d
  | .sleepRequest => sleepRequest d
  | .dozeEntry => dozeEntry d
  | .dormantEntry => dormantEntry d
  | .wake cause => wake cause d
  | .linkAligned => linkAligned d
  | .tickFrame f => tickFrame f d
  | .planFrame f => planFrame f d
  | .eventFrame f => eventFrame f d
  | .echoFrame f => echoFrame f d
  | .writeFrame f => writeFrame f d
  | .syncFrame f => syncFrame f d
  | .cellarFrame f => cellarFrame f d
  | .syncSend => syncSend d
  | .linkFrameResend => linkResend d
  | .linkDown lostAlignment => linkDown lostAlignment d
  | .linkUp => linkUp d
  | .notJoined => notJoined d
  | .positionLost pos => positionLost pos d
  | .tickSkew => tickSkew d
  | .noPartner => noPartner d
  | .twinWriteApply => twinWriteApply d
  | .takeover => takeover d
  | .vhioBankDetector above => vhioBank above d
  | .testPortTckEdge _ _ _ _ _ => d

/-- A command other than POWER_ON_RESET and a TCK edge acts on the device alone, and by the device alone. -/
theorem exec_effect (c : Instr) (hpor : c ≠ .powerOnReset) (htck : ∀ r m i n l, c ≠ .testPortTckEdge r m i n l) (s : State) :
    exec c s = .next { s with dev := (effect c s.dev).finish } := by
  cases c
  case powerOnReset => exact absurd rfl hpor
  case testPortTckEdge r m i n l => exact absurd rfl (htck r m i n l)
  all_goals rfl

theorem exec_powerOnReset (s : State) :
    exec .powerOnReset s = .next { s with dev := (effect .powerOnReset s.dev).finish, tap := {} } := rfl

theorem exec_tckEdge (r m i n : Bool) (l : List Bool) (s : State) :
    exec (.testPortTckEdge r m i n l) s = .next (tckEdge r m i n l s) := rfl

/-- A command's whole effect from its own part. -/
theorem exec_of_effect {c : Instr} {s : State} {e : Dev} (h : effect c s.dev = e)
    (hpor : c ≠ .powerOnReset := by nofun) (htck : ∀ r m i n l, c ≠ .testPortTckEdge r m i n l := by nofun) :
    exec c s = .next { s with dev := e.finish } := by
  rw [exec_effect c hpor htck, h]

/-- Of the device an edge of TCK changes at most the count of free values. -/
theorem tckEdge_frees (r m i n : Bool) (l : List Bool) (s : State) :
    ∃ k, (tckEdge r m i n l s).dev = { s.dev with sys.frees := k } := by
  unfold tckEdge
  split
  · exact ⟨s.dev.sys.frees, rfl⟩
  · split
    · exact ⟨s.dev.sys.frees, rfl⟩
    · split
      · exact ⟨s.dev.sys.frees + 1, rfl⟩
      · exact ⟨s.dev.sys.frees, rfl⟩

/-- What an edge of TCK does does not rest on the queue. -/
theorem tckEdge_pending (r m i n : Bool) (l : List Bool) (s : State) (p : List Instr) :
    tckEdge r m i n l { s with pending := p } = { tckEdge r m i n l s with pending := p } := by
  unfold tckEdge
  split
  · rfl
  · split
    · rfl
    · dsimp only
      split
      · rfl
      · rfl

/-- A command is POWER_ON_RESET, a TCK edge, or one that acts on the device alone. -/
theorem exec_cases (c : Instr) :
    c = .powerOnReset ∨ (∃ r m i n l, c = .testPortTckEdge r m i n l) ∨
      (c ≠ .powerOnReset ∧ ∀ r m i n l, c ≠ .testPortTckEdge r m i n l) := by
  by_cases htck : ∃ r m i n l, c = .testPortTckEdge r m i n l
  · exact .inr (.inl htck)
  · by_cases hpor : c = .powerOnReset
    · exact .inl hpor
    · exact .inr (.inr ⟨hpor, fun r m i n l h => htck ⟨r, m, i, n, l, h⟩⟩)

/-- Every command answers a next state that keeps the queue, and what is queued does not change what the command does. -/
theorem exec_next (c : Instr) (s : State) :
    ∃ t : State, exec c s = .next t ∧ t.pending = s.pending ∧
      ∀ p, exec c { s with pending := p } = .next { t with pending := p } := by
  rcases exec_cases c with rfl | ⟨r, m, i, n, l, rfl⟩ | ⟨hpor, htck⟩
  · exact ⟨_, exec_powerOnReset s, rfl, fun p => by rw [exec_powerOnReset]⟩
  · exact ⟨_, exec_tckEdge r m i n l s, (tckEdge_dev r m i n l s).1,
      fun p => (exec_tckEdge r m i n l _).trans (congrArg Host.Outcome.next (tckEdge_pending r m i n l s p))⟩
  · exact ⟨_, exec_effect c hpor htck s, rfl, fun p => by rw [exec_effect c hpor htck]⟩

/-- What the test logic holds does not change what a command other than a TCK edge does to the device. -/
theorem exec_tap_irrelevant (c : Instr) (s : State) (u : Tap) (htck : ∀ r m i n l, c ≠ .testPortTckEdge r m i n l) :
    ∃ (t : State) (v : Tap), exec c s = .next t ∧ exec c { s with tap := u } = .next { t with tap := v } ∧
      t.pending = s.pending := by
  by_cases hpor : c = .powerOnReset
  · subst hpor
    exact ⟨_, {}, exec_powerOnReset s, by rw [exec_powerOnReset], rfl⟩
  · exact ⟨_, u, exec_effect c hpor htck s, by rw [exec_effect c hpor htck], rfl⟩

/-- The device after a command is one that FAULT_N's release ended, or the one before but for the count of free values. -/
theorem exec_released (c : Instr) {s t : State} (ht : exec c s = .next t) :
    (∃ e : Dev, t.dev = e.faultRelease) ∨ ∃ k, t.dev = { s.dev with sys.frees := k } := by
  rcases exec_cases c with rfl | ⟨r, m, i, n, l, rfl⟩ | ⟨hpor, htck⟩
  · cases (exec_powerOnReset s).symm.trans ht
    exact .inl (Dev.finish_release _)
  · cases (exec_tckEdge r m i n l s).symm.trans ht
    exact .inr (tckEdge_frees r m i n l s)
  · cases (exec_effect c hpor htck s).symm.trans ht
    exact .inl (Dev.finish_release _)

/-! ## One step -/

theorem step_cons (c : Instr) (p : List Instr) (s : State) (h : s.pending = c :: p) :
    step s = exec c { s with pending := p } := by
  unfold step
  rw [h]

/-- Every step answers a next state. -/
theorem step_next (s : State) : ∃ t, step s = .next t := by
  cases hp : s.pending with
  | nil => exact ⟨_, step_nil s hp⟩
  | cons c rest =>
    rw [step_cons c rest s hp]
    obtain ⟨t, ht, -⟩ := exec_next c { s with pending := rest }
    exact ⟨t, ht⟩

/-! ## Runs -/

theorem run_zero (s : State) : core.run 0 s = .next s := rfl

/-- A run of one more step is that step and the run from where it leads. -/
theorem run_succ {s t : State} (n : Nat) (h : step s = .next t) : core.run (n + 1) s = core.run n t := by
  have hstep : core.step s = .next t := h
  exact (Host.Core.run.eq_2 core s n).trans (by rw [hstep])

/-- Two runs one after the other are one run. -/
theorem run_add (m n : Nat) {s t : State} (h : core.run m s = .next t) : core.run (m + n) s = core.run n t := by
  induction m generalizing s with
  | zero =>
    cases (run_zero s).symm.trans h
    rw [Nat.zero_add]
  | succ m ih =>
    obtain ⟨u, hu⟩ := step_next s
    rw [run_succ m hu] at h
    rw [Nat.add_right_comm, run_succ _ hu, ih h]

/-- Settles O1: a step on a queue with a command at its front is that command. -/
theorem stepRunsFrontCommand : Obligations.StepRunsFrontCommand :=
  fun c s => step_cons c s.pending _ rfl

/-- Settles O5, by induction on the length of the run: no step faults or is refused. -/
theorem everyRunIsSafe : Obligations.EveryRunIsSafe := by
  intro n
  induction n with
  | zero => exact fun s => ⟨s, run_zero s⟩
  | succ n ih =>
    intro s
    obtain ⟨t, ht⟩ := step_next s
    obtain ⟨u, hu⟩ := ih t
    exact ⟨u, (run_succ n ht).trans hu⟩

/-- Settles O4, by induction on the queue: what stands behind a command changes nothing of what it does. -/
theorem queueIsFirstInFirstOut : Obligations.QueueIsFirstInFirstOut := by
  intro cs rest
  induction cs with
  | nil => exact fun s hs => ⟨s, run_zero s, hs, run_zero _⟩
  | cons c cs ih =>
    intro s hs
    obtain ⟨t, ht, hpending, hqueue⟩ := exec_next c { s with pending := cs }
    obtain ⟨u, hu, hempty, hbehind⟩ := ih t hpending
    refine ⟨u, ?_, hempty, ?_⟩
    · rw [List.length_cons, run_succ _ ((step_cons c cs s hs).trans ht), hu]
    · have first := (step_cons c (cs ++ rest) { s with pending := c :: cs ++ rest } rfl).trans (hqueue (cs ++ rest))
      rw [List.length_cons, run_succ _ first, hbehind]

/-- The test logic never reaches the device: runs of the same commands, none of them a TCK edge, from states that differ in the
test logic alone stay equal but for it. By induction on the length of the run. -/
theorem run_tap_irrelevant (n : Nat) (s : State) (u : Tap) (hs : ∀ c ∈ s.pending, ∀ r m i k l, c ≠ .testPortTckEdge r m i k l) :
    ∃ t v : State, core.run n s = .next t ∧ core.run n { s with tap := u } = .next v ∧ v.dev = t.dev ∧ v.pending = t.pending := by
  induction n generalizing s u with
  | zero => exact ⟨s, _, run_zero _, run_zero _, rfl, rfl⟩
  | succ n ih =>
    obtain ⟨p, d, w⟩ := s
    match p with
    | [] =>
      have steps (x : Tap) := step_nil ⟨[], d, x⟩ rfl
      obtain ⟨t, v, ht, hv, hsame⟩ := ih ⟨[], clkinPeriod d, w⟩ u hs
      exact ⟨t, v, (run_succ n (steps w)).trans ht, (run_succ n (steps u)).trans hv, hsame⟩
    | c :: rest =>
      have steps (x : Tap) := step_cons c rest ⟨c :: rest, d, x⟩ rfl
      obtain ⟨t, x, ht, hx, hqueue⟩ := exec_tap_irrelevant c ⟨rest, d, w⟩ u (hs c List.mem_cons_self)
      obtain ⟨t', v, ht', hv, hsame⟩ := ih t x (by rw [hqueue]; exact fun y hy => hs y (List.mem_cons_of_mem c hy))
      exact ⟨t', v, (run_succ n ((steps w).trans ht)).trans ht', (run_succ n ((steps u).trans hx)).trans hv, hsame⟩

/-- Settles O8: commands apart from the test port's are functions of the device alone. -/
theorem testLogicStaysApart : Obligations.TestLogicStaysApart := by
  refine ⟨fun c s t ht => ⟨?queue, ?reset, ?keeps⟩, run_tap_irrelevant⟩
  case queue =>
    obtain ⟨u, hu, hpending, -⟩ := exec_next c s
    cases hu.symm.trans ht
    exact hpending
  case reset =>
    rintro rfl
    cases (exec_powerOnReset s).symm.trans ht
    rfl
  case keeps =>
    intro hpor htck
    cases (exec_effect c hpor htck s).symm.trans ht
    rfl

end Sys2Proof.Machine
end

section
/-! Time and FAULT_N: one CLKIN period, what many of them add up to, and the level of FAULT_N that R157 forbids. -/

namespace Sys2Proof.Machine

/-! ## One CLKIN period -/

/-- The SLOWCLK phase and the timestamp after one CLKIN period (R501). -/
def clkAfter (d : Dev) : Clk :=
  { d.clk with
    slowPhase := d.clk.slowPhase + 1
    now := if d.sys.sleep = .dormant then (if d.clk.slowPhase + 1 = 0 then d.clk.now + 64 else d.clk.now) else d.clk.now + 1 }

/-- A second that is counted, or not yet, changes the ageing ledger alone. -/
theorem Dev.ledAdd_unless_age (d : Dev) (c : Prop) [Decidable c] (a n v : Nat) :
    ∃ g, (if c then d else d.ledAdd a n v) = { d with age := g } := by
  split
  · exact ⟨d.age, rfl⟩
  · exact ⟨_, rfl⟩

/-- A CLKIN period counts, notes the ageing seconds and releases FAULT_N. -/
theorem clkinPeriod_present (d : Dev) (h : d.clk.clkinOk = true) :
    ∃ g, clkinPeriod d = ({ d with clk := clkAfter d, age := g } : Dev).faultRelease := by
  unfold clkinPeriod
  rw [if_neg (by rw [h]; decide)]
  extract_lets slow now n clk counted p r age second powered run
  obtain ⟨g, hpowered⟩ : ∃ g, powered = { second with age := g } := second.ledAdd_unless_age ..
  obtain ⟨g', hrun⟩ : ∃ g, run = { powered with age := g } := powered.ledAdd_unless_age ..
  have hnow : now = (clkAfter d).now := by simp only [now, slow, clkAfter, beq_iff_eq]
  refine ⟨g', congrArg Dev.faultRelease ?_⟩
  rw [hrun, hpowered]
  simp only [second, counted, hnow]
  rfl

/-- A CLKIN period changes the clocks as R501 says, and besides them only the ageing ledger and FAULT_N, which can only rise. -/
theorem clkinPeriod_eq (d : Dev) (h : d.clk.clkinOk = true) :
    ∃ (g : Age) (f : Bool), clkinPeriod d = { d with clk := clkAfter d, age := g, sys := { d.sys with faultN := f } } ∧
      (d.sys.faultN = true → f = true) := by
  obtain ⟨g, hg⟩ := clkinPeriod_present d h
  obtain ⟨f, hf, hrise⟩ := Dev.faultRelease_eq { d with clk := clkAfter d, age := g }
  exact ⟨g, f, hg.trans hf, hrise⟩

/-- Settles O2: the period without CLKIN and the one with it. -/
theorem idleStepIsOneClkinPeriod : Obligations.IdleStepIsOneClkinPeriod := by
  intro s hs
  refine ⟨fun h => ?absent, fun h => ?present⟩
  case absent => rw [step_nil s hs, clkinPeriod_absent _ h]
  case present =>
    obtain ⟨g, f, hperiod, hrise⟩ := clkinPeriod_eq s.dev h
    exact ⟨g, f, by rw [step_nil s hs, hperiod]; rfl, hrise⟩

/-! ## Many CLKIN periods -/

/-- What periods on an empty queue leave as it is. -/
structure IdleFrame (s t : State) : Prop where
  pending : t.pending = []
  tap : t.tap = s.tap
  clkinOk : t.dev.clk.clkinOk = s.dev.clk.clkinOk
  sleep : t.dev.sys.sleep = s.dev.sys.sleep
  tickNo : t.dev.clk.tickNo = s.dev.clk.tickNo
  win : t.dev.win = s.dev.win
  rings : t.dev.rings = s.dev.rings
  heads : t.dev.heads = s.dev.heads
  axes : t.dev.axes = s.dev.axes
  sol : t.dev.sol = s.dev.sol
  link : t.dev.link = s.dev.link

theorem IdleFrame.refl {s : State} (h : s.pending = []) : IdleFrame s s :=
  ⟨h, rfl, rfl, rfl, rfl, rfl, rfl, rfl, rfl, rfl, rfl⟩

theorem IdleFrame.trans {s t u : State} (h : IdleFrame s t) (k : IdleFrame t u) : IdleFrame s u where
  pending := k.pending
  tap := k.tap.trans h.tap
  clkinOk := k.clkinOk.trans h.clkinOk
  sleep := k.sleep.trans h.sleep
  tickNo := k.tickNo.trans h.tickNo
  win := k.win.trans h.win
  rings := k.rings.trans h.rings
  heads := k.heads.trans h.heads
  axes := k.axes.trans h.axes
  sol := k.sol.trans h.sol
  link := k.link.trans h.link

/-- One period on an empty queue, with CLKIN: the clocks of R501, and the rest stands. -/
theorem step_idle (s : State) (hs : s.pending = []) (h : s.dev.clk.clkinOk = true) :
    ∃ t, step s = .next t ∧ IdleFrame s t ∧ t.dev.clk = clkAfter s.dev := by
  obtain ⟨g, f, hperiod, -⟩ := clkinPeriod_eq s.dev h
  refine ⟨_, step_nil s hs, ?_, ?_⟩
  · rw [hperiod]
    exact ⟨hs, rfl, rfl, rfl, rfl, rfl, rfl, rfl, rfl, rfl, rfl⟩
  · rw [hperiod]

/-- n periods outside Dormant count n, modulo 2 to the 48. -/
theorem run_idle_awake (n : Nat) (s : State) (hs : s.pending = []) (hclk : s.dev.clk.clkinOk = true)
    (hsleep : s.dev.sys.sleep ≠ .dormant) :
    ∃ t, core.run n s = .next t ∧ IdleFrame s t ∧ t.dev.clk.now = s.dev.clk.now + BitVec.ofNat 48 n := by
  induction n generalizing s with
  | zero => exact ⟨s, run_zero s, .refl hs, (BitVec.add_zero _).symm⟩
  | succ n ih =>
    obtain ⟨t, ht, hframe, hclkt⟩ := step_idle s hs hclk
    obtain ⟨u, hu, hrest, hnow⟩ := ih t hframe.pending (hframe.clkinOk.trans hclk) (by rw [hframe.sleep]; exact hsleep)
    refine ⟨u, (run_succ n ht).trans hu, hframe.trans hrest, ?_⟩
    rw [hnow, hclkt, clkAfter, if_neg hsleep, BitVec.add_assoc, Nat.add_comm n 1, BitVec.ofNat_add]
    rfl

/-- n periods in Dormant count 64 for each SLOWCLK edge among them: one edge in 64 periods. -/
theorem run_idle_dormant (n : Nat) (s : State) (hs : s.pending = []) (hclk : s.dev.clk.clkinOk = true)
    (hsleep : s.dev.sys.sleep = .dormant) :
    ∃ t, core.run n s = .next t ∧ IdleFrame s t ∧ t.dev.clk.slowPhase = s.dev.clk.slowPhase + BitVec.ofNat 6 n ∧
      t.dev.clk.now = s.dev.clk.now + BitVec.ofNat 48 (64 * ((s.dev.clk.slowPhase.toNat + n) / 64)) := by
  induction n generalizing s with
  | zero =>
    refine ⟨s, run_zero s, .refl hs, (BitVec.add_zero _).symm, ?_⟩
    rw [Nat.add_zero, Nat.div_eq_of_lt s.dev.clk.slowPhase.isLt, Nat.mul_zero, BitVec.add_zero]
  | succ n ih =>
    obtain ⟨t, ht, hframe, hclkt⟩ := step_idle s hs hclk
    obtain ⟨u, hu, hrest, hphase, hnow⟩ := ih t hframe.pending (hframe.clkinOk.trans hclk) (hframe.sleep.trans hsleep)
    refine ⟨u, (run_succ n ht).trans hu, hframe.trans hrest, ?_, ?_⟩
    · rw [hphase, hclkt, clkAfter, BitVec.add_assoc, Nat.add_comm n 1, BitVec.ofNat_add]
      rfl
    · rw [hnow, hclkt, clkAfter]
      dsimp only
      rw [if_pos hsleep]
      have hlt := s.dev.clk.slowPhase.isLt
      by_cases hwrap : s.dev.clk.slowPhase + 1 = 0
      · have hlast : s.dev.clk.slowPhase.toNat = 63 := by bv_omega
        rw [if_pos hwrap, hwrap, hlast, BitVec.add_assoc]
        have hedge : (63 + (n + 1)) / 64 = 1 + ((0 : BitVec 6).toNat + n) / 64 := by simp; omega
        rw [hedge, Nat.mul_add, BitVec.ofNat_add]
        rfl
      · have hnext : (s.dev.clk.slowPhase + 1).toNat = s.dev.clk.slowPhase.toNat + 1 := by bv_omega
        rw [if_neg hwrap, hnext, Nat.add_assoc, Nat.add_comm 1 n]

/-- Settles O3: outside Dormant by the count of n periods, in Dormant by the 64 n periods' n SLOWCLK edges. -/
theorem timePassesWhileIdle : Obligations.TimePassesWhileIdle := by
  refine ⟨fun n s hs hclk hsleep => ?awake, fun n s hs hclk hsleep => ?dormant⟩
  case awake =>
    obtain ⟨t, ht, hframe, hnow⟩ := run_idle_awake n s hs hclk hsleep
    exact ⟨t, ht, hframe.pending, hframe.tap, hnow, hframe.tickNo, hframe.win, hframe.rings, hframe.heads, hframe.axes,
      hframe.sol, hframe.link⟩
  case dormant =>
    obtain ⟨t, ht, hframe, hphase, hnow⟩ := run_idle_dormant (64 * n) s hs hclk hsleep
    refine ⟨t, ht, hframe.pending, hframe.sleep.trans hsleep, ?_, ?_, hframe.win, hframe.rings⟩
    · have : BitVec.ofNat 6 (64 * n) = 0#6 := BitVec.eq_of_toNat_eq (by simp)
      rw [hphase, this, BitVec.add_zero]
    · have hlt := s.dev.clk.slowPhase.isLt
      have : (s.dev.clk.slowPhase.toNat + 64 * n) / 64 = n := by omega
      rw [hnow, this]

/-! ## FAULT_N -/

/-- FAULT_N does not hang low where its release has just been weighed: that is what the release is for. -/
theorem not_faultHangs_faultRelease (d : Dev) : ¬ FaultHangs d.faultRelease := by
  unfold Dev.faultRelease
  split
  · rintro ⟨hlow, -⟩
    exact Bool.noConfusion hlow
  · next hstays =>
    rintro ⟨hlow, hop, hopen, hearly, hpast⟩
    exact hstays (by simp only [hlow, hop, hopen, hearly, hpast, Bool.not_false, List.isEmpty_nil, Bool.and_self])

/-- Settles O6: after reset the line is high. -/
theorem resetFaultLineIsFree : Obligations.ResetFaultLineIsFree :=
  ⟨rfl, fun ⟨hlow, _⟩ => Bool.noConfusion hlow⟩

/-- Settles O7: every command but a TCK edge and every CLKIN period ends with the release, and the edge leaves what R157 is
about. -/
theorem faultLineNeverHangs : Obligations.FaultLineNeverHangs := by
  intro s s' hfree hstep
  rcases hp : s.pending with _ | ⟨c, rest⟩
  · cases (step_nil s hp).symm.trans hstep
    by_cases hclk : s.dev.clk.clkinOk = true
    · obtain ⟨g, hg⟩ := clkinPeriod_present s.dev hclk
      rw [hg]
      exact not_faultHangs_faultRelease _
    · rw [clkinPeriod_absent _ (Bool.not_eq_true _ ▸ hclk)]
      exact hfree
  · rcases exec_released c ((step_cons c rest s hp).symm.trans hstep) with ⟨e, he⟩ | ⟨k, hk⟩
    · rw [he]
      exact not_faultHangs_faultRelease e
    · rw [hk]
      exact hfree

end Sys2Proof.Machine
end

section
/-! What every command ends with, at a device at which nothing is under way: one lemma for each part of `finish`, and the
commands that leave the window, the rings and the heads alone. -/

namespace Sys2Proof.Machine

/-- No work is admitted, in progress or owed: no record, no band, no move, no cut, no tasting run, no pulse, no store, and nothing
of the link that waits. Reactions may be in force and status records may wait. -/
structure Idle (d : Dev) : Prop where
  admitted : d.rings.admitted = []
  band : d.line.band = none
  move : d.media.move = none
  cut : d.media.cut = none
  taste : d.taste = none
  pulses : d.solx.runs = []
  cork : d.cel.pulseHeld = false
  store : d.cel.store = none
  slices : ∀ k, (d.line.slices.get k).leaving = false
  partner : d.link.partnerLeaving = 0
  plan : d.link.planOwed = false
  takeover : d.link.takeover = none
  changes : d.link.changes = []
  echoes : d.link.echoed = []
  resends : d.link.resends = 0
  segments : d.axes.a.segs = []

/-- Nothing is under way, but the half-bridges may still have to follow: what every command ends with settles them alone. -/
structure Still (d : Dev) : Prop extends Idle d where
  link : d.clk.linkRun = true ∨ d.link.aligned = false
  waiting : d.rings.waiting = []
  room : d.rings.fullHeld = false
  reactions : d.flt.active = []
  cover : d.media.cover = false → d.coverActive = false

theorem Quiet.still {d : Dev} (h : Quiet d) : Still d where
  admitted := h.admitted
  band := h.band
  move := h.move
  cut := h.cut
  taste := h.taste
  pulses := h.pulses
  cork := h.cork
  store := h.store
  slices := h.slices
  partner := h.partner
  plan := h.plan
  takeover := h.takeover
  changes := h.changes
  echoes := h.echoes
  resends := h.resends
  segments := h.segments
  link := h.link
  waiting := h.waiting
  room := h.room
  reactions := h.reactions
  cover := h.cover

theorem Quiet.settleBridges {d : Dev} (h : Quiet d) : d.settleBridges = d :=
  d.settleBridges_of_follow h.bridges

/-! ## The parts of `finish` -/

namespace Idle

variable {d : Dev}

theorem mover (h : Idle d) : d.mover = none := by
  simp only [Dev.mover, h.move, h.cut, Option.map_none]

theorem lateStarts (h : Idle d) : d.lateStarts = d := by
  simp only [Dev.lateStarts, h.admitted, List.foldl_nil]

theorem closeQuiet (h : Idle d) : d.closeQuiet = d := by
  simp only [Dev.closeQuiet, h.band]

theorem resumeCut (h : Idle d) : d.resumeCut = d := by
  simp only [Dev.resumeCut, h.cut]

theorem weighRuns (h : Idle d) : d.weighRuns = d := by
  simp only [Dev.weighRuns, h.pulses, List.foldl_nil]

theorem tryExhausted (h : Idle d) : d.tryExhausted = none := by
  simp only [Dev.tryExhausted, h.admitted, List.findSome?_nil, ite_self]

theorem tryOverlap (h : Idle d) : d.tryOverlap = none := by
  simp only [Dev.tryOverlap, h.band]

theorem tryLoad (h : Idle d) : d.tryLoad = none := by
  simp only [Dev.tryLoad, h.admitted, List.find?_nil]

theorem tryMove (h : Idle d) : d.tryMove = none := by
  simp only [Dev.tryMove, h.move]

theorem tryMover (h : Idle d) : d.tryMover = none := by
  simp only [Dev.tryMover, h.admitted, List.find?_nil, ite_self]

theorem tryBand (h : Idle d) : d.tryBand = none := by
  simp only [Dev.tryBand, h.band]

theorem tryTaste (h : Idle d) : d.tryTaste = none := by
  simp only [Dev.tryTaste, h.taste, h.admitted, List.find?_nil, ite_self]

theorem tryFree (h : Idle d) : d.tryFree = none := by
  simp only [Dev.tryFree, h.admitted, List.find?_nil]

/-- Where no record is admitted and none is in progress, none begins. -/
theorem beginAll (h : Idle d) (n : Nat) : d.beginAll n = d := by
  cases n with
  | zero => rfl
  | succ n =>
    simp only [Dev.beginAll, h.tryExhausted, h.tryOverlap, h.tryLoad, h.tryMove, h.tryMover, h.tryBand, h.tryTaste, h.tryFree,
      Option.orElse_none]

theorem weigh (h : Idle d) : d.weigh = d := by
  simp only [Dev.weigh, h.admitted, List.foldl_nil]

theorem weighTaste (h : Idle d) : d.weighTaste = d := by
  simp only [Dev.weighTaste, h.taste]

theorem heldPulse (h : Idle d) : d.heldPulse = d := by
  simp only [Dev.heldPulse, h.cork, Bool.false_and, Bool.false_eq_true, if_false]

theorem suspendStore (h : Idle d) : d.suspendStore = d := by
  simp only [Dev.suspendStore, h.store]

theorem linesRun (h : Idle d) : d.linesRun = false := by
  simp only [Dev.linesRun, h.band, Option.map_none, Option.getD_none]

/-- No slice leaves, and none of the partner's. -/
theorem withdrawDue (h : Idle d) : d.withdrawDue = d := by
  have none_leaves : (fin4.filter fun k => (d.line.slices.get k).leaving) = [] := by
    simp only [h.slices, List.filter_eq_nil_iff, Bool.false_eq_true, not_false_eq_true, implies_true]
  have partner : { d.link with partnerSlices := d.link.partnerSlices.map fun n => n - d.link.partnerLeaving, partnerLeaving := 0 }
      = d.link := by
    have hp := h.partner
    revert hp
    cases d.link
    rintro rfl
    simp
  simp only [Dev.withdrawDue, partner, none_leaves, Dev.each4, List.foldl_nil]

theorem takeDrive (h : Idle d) : d.takeDrive = d := by
  simp only [Dev.takeDrive, h.takeover]

theorem compareEchoes (h : Idle d) : d.compareEchoes = d := by
  simp only [Dev.compareEchoes, h.echoes, List.foldl_nil, ite_self]

theorem sendChanges (h : Idle d) (n : Nat) : d.sendChanges n = d := by
  cases n with
  | zero => rfl
  | succ n => simp only [Dev.sendChanges, h.changes, List.isEmpty_nil, Bool.or_true, if_true]

theorem tellMembers (h : Idle d) : d.tellMembers = d := by
  simp only [Dev.tellMembers, h.segments, List.any_nil, Bool.not_false, Bool.or_true, if_true]

theorem settleResend (h : Idle d) : d.settleResend = d := by
  simp only [Dev.settleResend, h.resends, decide_true, Bool.true_or, if_true]

end Idle

namespace Still

variable {d : Dev}

theorem settleCover (h : Still d) : d.settleCover = d := by
  have : (!d.awake || d.media.cover || !d.secOn (16 + d.mot.curMedia) || !d.coverActive) = true := by
    cases hc : d.media.cover with
    | false => rw [h.cover hc, Bool.not_false, Bool.or_true]
    | true => rw [Bool.or_true, Bool.true_or, Bool.true_or]
  exact if_pos this

theorem settleStatus (h : Still d) : d.settleStatus = d := by
  simp [Dev.settleStatus, h.waiting, h.room]

theorem startWaiting (h : Still d) : d.startWaiting = d := by
  simp only [Dev.startWaiting, h.reactions, List.filter_nil, List.foldl_nil]

theorem settleReacts (h : Still d) (n : Nat) : d.settleReacts n = d := by
  cases n with
  | zero => rfl
  | succ n => simp only [Dev.settleReacts, h.startWaiting, ite_self, h.reactions, List.find?_nil]

/-- A command at a device at which nothing is under way ends with the half-bridges and FAULT_N alone. -/
theorem finish (h : Still d) : d.finish = d.settleBridges.faultRelease := by
  have running : (d.clk.linkRun || !d.link.aligned) = true := by rcases h.link with hl | hl <;> simp [hl]
  have plan : (d.link.planOwed && !d.memberHeld) = false := by rw [h.plan, Bool.false_and]
  simp only [Dev.finish, running, if_true, h.settleCover, h.lateStarts, h.closeQuiet, h.settleStatus, h.settleReacts, h.resumeCut,
    h.weighRuns, h.beginAll, h.weigh, h.weighTaste, h.heldPulse, h.suspendStore, plan, Bool.false_eq_true, if_false, h.linesRun,
    h.withdrawDue, h.takeDrive, h.compareEchoes, h.sendChanges, h.tellMembers, h.settleResend, ite_self]

end Still

/-- Settles O9: nothing begins, and half-bridges that do what they are to do stay so. -/
theorem quietDeviceFinishesAtOnce : Obligations.QuietDeviceFinishesAtOnce := by
  intro d h
  have ends : d.finish = d.faultRelease := by rw [h.still.finish, h.settleBridges]
  exact ⟨ends, fun high => ends.trans (d.faultRelease_high high)⟩

/-! ## Commands that leave the window, the rings and the heads alone -/

/-- The parts of the device that hold the window, the rings, the heads, the lines and the media group stand. -/
structure WindowStands (d e : Dev) : Prop where
  win : e.win = d.win
  rings : e.rings = d.rings
  port : e.port = d.port
  heads : e.heads = d.heads
  line : e.line = d.line
  mot : e.mot = d.mot

theorem WindowStands.refl (d : Dev) : WindowStands d d := ⟨rfl, rfl, rfl, rfl, rfl, rfl⟩

theorem WindowStands.trans {d e f : Dev} (h : WindowStands d e) (k : WindowStands e f) : WindowStands d f :=
  ⟨k.win.trans h.win, k.rings.trans h.rings, k.port.trans h.port, k.heads.trans h.heads, k.line.trans h.line, k.mot.trans h.mot⟩

/-- The half-bridges' change and FAULT_N's release leave the window. -/
theorem windowStands_settled (d : Dev) : WindowStands d d.settleBridges.faultRelease := by
  obtain ⟨a, ha⟩ := d.settleBridges_frame
  rw [ha]
  exact ⟨by simp, by simp, by simp, by simp, by simp, by simp⟩

/-- A command whose own part leaves the window and sets nothing going leaves it as a whole. -/
theorem windowStands_of_effect {c : Instr} {s t : State} (hpor : c ≠ .powerOnReset)
    (htck : ∀ r m i n l, c ≠ .testPortTckEdge r m i n l) (ht : exec c s = .next t)
    (h : WindowStands s.dev (effect c s.dev)) (hs : Still (effect c s.dev)) : WindowStands s.dev t.dev := by
  cases (exec_effect c hpor htck s).symm.trans ht
  dsimp only
  rw [hs.finish]
  exact h.trans (windowStands_settled _)

/-- The command's own part leaves the window and sets nothing going. -/
def Harmless (d e : Dev) : Prop := WindowStands d e ∧ (Still d → Still e)

theorem Harmless.refl (d : Dev) : Harmless d d := ⟨.refl d, id⟩

theorem Harmless.trans {d e f : Dev} (h : Harmless d e) (k : Harmless e f) : Harmless d f :=
  ⟨h.1.trans k.1, fun hd => k.2 (h.2 hd)⟩

theorem harmless_onSol (d : Dev) (c : Fin 8) (f : Sol → Sol) : Harmless d (d.onSol c f) :=
  ⟨⟨rfl, rfl, rfl, rfl, rfl, rfl⟩, fun h => { h with }⟩

/-- An axis may change as long as its plan of segments stands. -/
theorem harmless_onAxis (d : Dev) (x : Fin 4) {f : Axis → Axis} (h : ∀ a, (f a).segs = a.segs) : Harmless d (d.onAxis x f) := by
  have first : (d.onAxis x f).axes.a.segs = d.axes.a.segs := by
    match x with
    | 0 => exact h _
    | 1 | 2 | 3 => rfl
  exact ⟨⟨rfl, rfl, rfl, rfl, rfl, rfl⟩, fun hd => { hd with segments := first.trans hd.segments }⟩

theorem harmless_sys (d : Dev) (f : Sys) : Harmless d { d with sys := f } :=
  ⟨⟨rfl, rfl, rfl, rfl, rfl, rfl⟩, fun h => { h with }⟩

theorem harmless_pers (d : Dev) (p : Pers) : Harmless d { d with pers := p } :=
  ⟨⟨rfl, rfl, rfl, rfl, rfl, rfl⟩, fun h => { h with }⟩

theorem harmless_strapsDecided (d : Dev) (f : Sys) (p : Pers) (on : Bool) :
    Harmless d { d with sys := f, pers := p, link.driving := on } :=
  ⟨⟨rfl, rfl, rfl, rfl, rfl, rfl⟩, fun h => { h with }⟩

theorem harmless_uart (d : Dev) (u : Uart) : Harmless d { d with uart := u } :=
  ⟨⟨rfl, rfl, rfl, rfl, rfl, rfl⟩, fun h => { h with }⟩

theorem harmless_faultLow (d : Dev) : Harmless d d.faultLow := by
  unfold Dev.faultLow
  split
  · exact harmless_sys d _
  · exact .refl d

theorem harmless_uartBreak (n : Nat) (d : Dev) : Harmless d (uartBreak n d) := by
  unfold uartBreak
  split
  · exact harmless_uart d _
  · exact .refl d

theorem harmless_sleepRequest (d : Dev) : Harmless d (sleepRequest d) := by
  unfold sleepRequest
  split
  · exact .refl d
  · exact harmless_sys d _

/-- A link that becomes aligned runs. -/
theorem harmless_linkAligned (d : Dev) : Harmless d (linkAligned d) := by
  unfold linkAligned
  split
  · exact .refl d
  · next hlive =>
    have hrun : d.clk.linkRun = true := by
      simp only [Dev.linkLive, Bool.or_eq_true, Bool.not_eq_true', Bool.and_eq_true, not_or, Bool.not_eq_false] at hlive
      exact hlive.1.1.2
    exact ⟨⟨rfl, rfl, rfl, rfl, rfl, rfl⟩, fun h => { h with link := .inl hrun }⟩

theorem harmless_onShare (c : Fin 8) (d : Dev) : Harmless d (onShare c d) := by
  unfold onShare
  dsimp only
  split
  · exact .refl d
  · exact (harmless_onSol d c _).trans (harmless_onSol _ c _)

theorem harmless_axisRelease (x : Fin 4) (d : Dev) : Harmless d (axisRelease x d) := by
  unfold axisRelease
  dsimp only
  split
  · exact .refl d
  · exact harmless_onAxis d x fun _ => rfl

theorem harmless_strapRound (u v : BitVec 16) (d : Dev) : Harmless d (strapRound u v d) := by
  unfold strapRound
  extract_lets rs pers straps decided sys link placed
  split
  · exact .refl d
  · split
    · exact harmless_pers d _
    · have hplaced : Harmless d placed := harmless_strapsDecided d placed.sys placed.pers placed.link.driving
      split
      · exact hplaced.trans (harmless_faultLow placed)
      · exact hplaced

/-- Settles O10: each command's own part is harmless, so that its end settles the half-bridges and FAULT_N alone. -/
theorem quietCommandsLeaveTheWindow : Obligations.QuietCommandsLeaveTheWindow := by
  intro s t c hquiet hc ht
  have stands : WindowStands s.dev t.dev := by
    have plain (hpor : c ≠ .powerOnReset) (htck : ∀ r m i n l, c ≠ .testPortTckEdge r m i n l)
        (h : Harmless s.dev (effect c s.dev)) : WindowStands s.dev t.dev :=
      windowStands_of_effect hpor htck ht h.1 (h.2 hquiet.still)
    rcases hc with ⟨b, rfl⟩ | ⟨n, rfl⟩ | rfl | rfl | ⟨k, rfl⟩ | ⟨x, rfl⟩ | ⟨u, v, rfl⟩ | ⟨r, m, i, k, l, rfl⟩
    · exact plain nofun nofun (harmless_sys s.dev _)
    · exact plain nofun nofun (harmless_uartBreak n.toNat s.dev)
    · exact plain nofun nofun (harmless_sleepRequest s.dev)
    · exact plain nofun nofun (harmless_linkAligned s.dev)
    · exact plain nofun nofun (harmless_onShare k s.dev)
    · exact plain nofun nofun (harmless_axisRelease x s.dev)
    · exact plain nofun nofun (harmless_strapRound u v s.dev)
    · cases (exec_tckEdge r m i k l s).symm.trans ht
      obtain ⟨n, hn⟩ := tckEdge_frees r m i k l s
      rw [hn]
      exact (harmless_sys s.dev _).1
  exact ⟨stands.win, stands.rings, stands.port, fun a => by rw [Dev.ram, stands.win, Dev.ram], stands.heads, stands.line,
    stands.mot⟩

end Sys2Proof.Machine
end

section
/-! Energy on the press: the supply constants and scaling (R225 to R227), slot selection (R228) and the bounds of a dot's
update. -/

namespace Sys2Proof.Machine

/-! ## Supply constants -/

/-- K_sh is sought upward: from a shift at which the quotient still has at most 12 bits the search stops at one where it has
exactly 12, when the fuel reaches one where it has as many. -/
theorem kFrom_spec (u n sh : Nat) (hlow : 25000 * 2 ^ sh < 4096 * (u * u)) (hfuel : 2048 * (u * u) ≤ 25000 * 2 ^ (sh + n)) :
    (kFrom u n sh).1 = 25000 * 2 ^ (kFrom u n sh).2 / (u * u) ∧ 2048 * (u * u) ≤ 25000 * 2 ^ (kFrom u n sh).2 ∧
      25000 * 2 ^ (kFrom u n sh).2 < 4096 * (u * u) := by
  induction n generalizing sh with
  | zero => exact ⟨rfl, hfuel, hlow⟩
  | succ n ih =>
    have hu : 0 < u * u := by omega
    rw [kFrom]
    by_cases hsmall : 25000 * 2 ^ sh / (u * u) < 2048
    · rw [if_pos hsmall]
      rw [Nat.div_lt_iff_lt_mul hu] at hsmall
      refine ih (sh + 1) ?_ (by rwa [Nat.add_right_comm])
      rw [Nat.pow_succ]
      omega
    · rw [if_neg hsmall]
      rw [Nat.div_lt_iff_lt_mul hu, Nat.not_lt] at hsmall
      exact ⟨rfl, hsmall, hlow⟩

/-- The square of a bounded sample (R225). -/
theorem sample_square_bounds {u : Nat} (hlo : 500 ≤ u) (hhi : u ≤ 4095) : 250000 ≤ u * u ∧ u * u ≤ 16769025 :=
  ⟨Nat.mul_le_mul hlo hlo, Nat.mul_le_mul hhi hhi⟩

theorem kPair_spec (v u : Nat) (hu : u = min (max v 500) 4095) :
    (kPair v).1 = 25000 * 2 ^ (kPair v).2 / (u * u) ∧ 2048 * (u * u) ≤ 25000 * 2 ^ (kPair v).2 ∧
      25000 * 2 ^ (kPair v).2 < 4096 * (u * u) := by
  have hsquare := sample_square_bounds (u := u) (by omega) (by omega)
  rw [kPair, ← hu]
  exact kFrom_spec u 12 10 (by omega) (by omega)

/-- At most one shift leaves a quotient of exactly 12 bits. -/
theorem shift_unique {U j k : Nat} (hj : 2048 * U ≤ 25000 * 2 ^ j) (hk : 25000 * 2 ^ k < 4096 * U) : k ≤ j := by
  refine Nat.not_lt.mp fun hlt => ?_
  have : 2 ^ (j + 1) ≤ 2 ^ k := Nat.pow_le_pow_right (by decide) hlt
  rw [Nat.pow_succ] at this
  omega

theorem kPair_shift_bounds (v : Nat) : 15 ≤ (kPair v).2 ∧ (kPair v).2 ≤ 21 := by
  obtain ⟨-, hlo, hhi⟩ := kPair_spec v _ rfl
  have hsquare := sample_square_bounds (u := min (max v 500) 4095) (by omega) (by omega)
  generalize min (max v 500) 4095 * min (max v 500) 4095 = U at *
  constructor
  · refine Nat.not_lt.mp fun hlt => ?_
    have : 2 ^ (kPair v).2 ≤ 2 ^ 14 := Nat.pow_le_pow_right (by decide) (Nat.le_of_lt_succ hlt)
    omega
  · exact shift_unique (U := U) (by omega) hhi

/-! ## Scaling -/

theorem bitlen_product_le {E R : Nat} (hE : E < 4096) (hR : R < 4096) : bitlen (E * R) - 12 ≤ 12 := by
  unfold bitlen
  split
  · omega
  · next hne =>
    have hlt : E * R < 2 ^ 24 := Nat.lt_of_le_of_lt (Nat.mul_le_mul (by omega : E ≤ 4095) (by omega : R ≤ 4095)) (by decide)
    have := (Nat.log2_lt hne).mpr hlt
    omega

/-- Scaling never stands for more than the product it came from (R226): each of its shifts truncates. -/
theorem scaleE_mul_le (km ksh : Nat) {E R : Nat} (hE : E < 4096) (hR : R < 4096) (hksh : 12 ≤ ksh) :
    scaleE km ksh E R * 2 ^ ksh ≤ E * R * km := by
  have hn := bitlen_product_le hE hR
  rw [scaleE]
  dsimp only
  split
  · rw [Nat.zero_mul]
    exact Nat.zero_le _
  · generalize hn' : bitlen (E * R) - 12 = n at hn
    have hsplit : 2 ^ ksh = 2 ^ (ksh - n) * 2 ^ n := by rw [← Nat.pow_add]; congr 1; omega
    calc min (E * R / 2 ^ n * km / 2 ^ (ksh - n)) 4095 * 2 ^ ksh
        ≤ E * R / 2 ^ n * km / 2 ^ (ksh - n) * 2 ^ (ksh - n) * 2 ^ n := by
          rw [hsplit, Nat.mul_assoc]
          exact Nat.mul_le_mul_right _ (Nat.min_le_left _ _)
      _ ≤ E * R / 2 ^ n * km * 2 ^ n := Nat.mul_le_mul_right _ (Nat.div_mul_le_self _ _)
      _ = E * R / 2 ^ n * 2 ^ n * km := Nat.mul_right_comm _ _ _
      _ ≤ E * R * km := Nat.mul_le_mul_right _ (Nat.div_mul_le_self _ _)

theorem scaleE_le (km ksh E R : Nat) : scaleE km ksh E R ≤ 4095 := by
  rw [scaleE]
  dsimp only
  split
  · exact Nat.zero_le _
  · exact Nat.min_le_right _ _

theorem scaleE_eq_zero (km ksh : Nat) {E R : Nat} (h : E = 0 ∨ R = 0) : scaleE km ksh E R = 0 := by
  rw [scaleE]
  exact if_pos (Nat.mul_eq_zero.mpr h)

/-- Settles O30: the constants by the search's answer, scaling by its two truncations. -/
theorem supplyConstants : Obligations.SupplyConstants := by
  refine ⟨fun v u hu => ?constants, fun E R v hE hR => ⟨scaleE_le .., scaleE_eq_zero _ _, ?truncates⟩⟩
  case constants =>
    obtain ⟨hk, hlo, hhi⟩ := kPair_spec v u hu
    obtain ⟨hmin, hmax⟩ := kPair_shift_bounds v
    have hU : 0 < u * u := by omega
    refine ⟨hk, ?_, ?_, hmin, hmax, fun k hklo hkhi => ?_⟩
    · rwa [hk, Nat.le_div_iff_mul_le hU]
    · rw [hk]
      exact Nat.le_of_lt_succ ((Nat.div_lt_iff_lt_mul hU).mpr hhi)
    · rw [Nat.le_div_iff_mul_le hU] at hklo
      have hkhi' := (Nat.div_lt_iff_lt_mul hU).mp (Nat.lt_succ_of_le hkhi)
      exact Nat.le_antisymm (shift_unique hlo hkhi') (shift_unique hklo hhi)
  case truncates =>
    obtain ⟨hmin, -⟩ := kPair_shift_bounds v
    exact scaleE_mul_le _ _ hE hR (by omega)

/-! ## Slot selection -/

/-- Setting a clear bit changes no other bit. -/
theorem testBit_add_two_pow {x s : Nat} (h : x.testBit s = false) {j : Nat} (hj : j ≠ s) :
    (x + 2 ^ s).testBit j = x.testBit j := by
  rcases Nat.lt_or_gt_of_ne hj with hlt | hgt
  · rw [Nat.add_comm, Nat.testBit_two_pow_add_gt hlt]
  · obtain ⟨k, rfl⟩ := Nat.exists_eq_add_of_lt hgt
    have even : x / 2 ^ s % 2 = 0 := by simpa [Nat.testBit_eq_decide_div_mod_eq] using h
    have above : (x + 2 ^ s) / 2 ^ (s + 1) = x / 2 ^ (s + 1) := by
      rw [Nat.pow_succ, ← Nat.div_div_eq_div_mul, ← Nat.div_div_eq_div_mul, Nat.add_div_right _ (Nat.two_pow_pos s)]
      omega
    rw [show s + k + 1 = k + (s + 1) by omega, Nat.testBit_add, Nat.testBit_add, above]

theorem testBit_add_two_pow_self {x s : Nat} (h : x.testBit s = false) : (x + 2 ^ s).testBit s = true := by
  rw [Nat.add_comm, Nat.testBit_two_pow_add_eq, h, Bool.not_false]

/-- The durations of those slots of an order that a selection holds. -/
def selectedTime (dur : List Nat) (sel : Nat) (order : List Nat) : Nat :=
  ((order.filter fun s => sel.testBit s).map fun s => dur.getD s 0).sum

/-- What slot selection answers from a selection that holds none of the slots still to try: the time taken stays within the
limit and moves from what remains, a slot outside the order stands as it was, one of the order that is taken is of the class,
and the time taken is that of the slots taken. -/
theorem selectSlots_spec (dur : List Nat) (mask tmax : Nat) (order : List Nat) (rem : Int) (ta sel : Nat) (hnodup : order.Nodup)
    (hta : ta ≤ tmax) (hclear : ∀ s ∈ order, sel.testBit s = false) {rem' : Int} {ta' sel' : Nat}
    (h : selectSlots dur mask tmax order rem ta sel = (rem', ta', sel')) :
    ta' ≤ tmax ∧ rem' = rem - ((ta' : Int) - ta) ∧ (∀ s, s ∉ order → sel'.testBit s = sel.testBit s) ∧
      (∀ s ∈ order, sel'.testBit s = true → mask.testBit s = true) ∧ ta' = ta + selectedTime dur sel' order := by
  induction order generalizing rem ta sel with
  | nil =>
    cases h
    exact ⟨hta, by omega, fun _ _ => rfl, nofun, rfl⟩
  | cons s rest ih =>
    obtain ⟨hs, hrest⟩ := List.nodup_cons.mp hnodup
    have hclear_rest (x : Nat) (hx : x ∈ rest) : sel.testBit x = false := hclear x (List.mem_cons_of_mem s hx)
    rw [selectSlots] at h
    split at h
    · next htake =>
      simp only [Bool.and_eq_true, decide_eq_true_eq] at htake
      obtain ⟨⟨hmask, -⟩, hroom⟩ := htake
      have hbit := hclear s List.mem_cons_self
      have hclear' (x : Nat) (hx : x ∈ rest) : (sel + 2 ^ s).testBit x = false := by
        rw [testBit_add_two_pow hbit (by rintro rfl; exact hs hx), hclear_rest x hx]
      obtain ⟨hle, hrem, hother, hclass, htime⟩ := ih _ _ _ hrest hroom hclear' h
      have htaken : sel'.testBit s = true := by rw [hother s hs, testBit_add_two_pow_self hbit]
      refine ⟨hle, by rw [hrem]; push_cast; omega, fun x hx => ?_, ?_, ?_⟩
      · obtain ⟨hne, hx'⟩ := List.ne_and_not_mem_of_not_mem_cons hx
        rw [hother x hx', testBit_add_two_pow hbit hne]
      · exact List.forall_mem_cons.mpr ⟨fun _ => hmask, hclass⟩
      · rw [htime, selectedTime, selectedTime, List.filter_cons_of_pos htaken, List.map_cons, List.sum_cons, Nat.add_assoc]
    · obtain ⟨hle, hrem, hother, hclass, htime⟩ := ih _ _ _ hrest hta hclear_rest h
      have hleft : sel'.testBit s = false := by rw [hother s hs, hclear s List.mem_cons_self]
      refine ⟨hle, hrem, fun x hx => hother x (List.not_mem_of_not_mem_cons hx), ?_, ?_⟩
      · refine List.forall_mem_cons.mpr ⟨fun hx => ?_, hclass⟩
        rw [hleft] at hx
        exact Bool.noConfusion hx
      · rw [htime, selectedTime, selectedTime, List.filter_cons_of_neg (by rw [hleft]; decide)]

/-- A selection from none holds slots of the order and of the class alone. -/
theorem selectSlots_slots {dur : List Nat} {mask tmax : Nat} {order : List Nat} {want rem : Int} {ta sel : Nat} (hnodup : order.Nodup)
    (h : selectSlots dur mask tmax order want 0 0 = (rem, ta, sel)) {s : Nat} (hs : sel.testBit s = true) :
    s ∈ order ∧ mask.testBit s = true := by
  obtain ⟨-, -, hother, hclass, -⟩ := selectSlots_spec dur mask tmax order want 0 0 hnodup (Nat.zero_le _)
    (fun s _ => Nat.zero_testBit s) h
  have hmem : s ∈ order := by
    refine Decidable.byContradiction fun hout => ?_
    rw [hother s hout, Nat.zero_testBit] at hs
    exact Bool.noConfusion hs
  exact ⟨hmem, hclass s hmem hs⟩

/-- Settles O32, by the selection's answer from none selected. -/
theorem slotSelectionIsBounded : Obligations.SlotSelectionIsBounded := by
  intro dur mask tmax order want rem ta sel hnodup h
  obtain ⟨hle, hrem, -, -, htime⟩ := selectSlots_spec dur mask tmax order want 0 0 hnodup (Nat.zero_le _)
    (fun s _ => Nat.zero_testBit s) h
  refine ⟨hle, by rw [hrem]; push_cast; omega, fun s hs => selectSlots_slots hnodup h hs, ?_⟩
  rw [← List.sum_eq_foldl_nat, htime, Nat.zero_add]
  rfl

/-! ## One dot's update -/

theorem wRes_mkWord (s : Nat) (c : Int) {r : Nat} (hr : r < 4096) : wRes (mkWord s c r) = r := by
  have hc := unsigned_eight_lt c
  simp only [wRes, bits, toNat_mkWord, Nat.reducePow, Nat.reduceAdd, Nat.reduceSub]
  omega

theorem wRes_lt (w : BitVec 32) : wRes w < 4096 := Nat.mod_lt _ (by decide)

/-- Settles O34: the update's two cases, and for a dot that fires the slots of its selection. -/
theorem dotUpdateIsBounded : Obligations.DotUpdateIsBounded := by
  rintro g w carry lo thd hi sdec et cls o rfl
  have update := dotUpdate_eq g w carry lo thd hi sdec et cls rfl
  generalize latState g.plan lo thd hi = thl at update
  by_cases hoff : et = 0 ∨ g.onTime w thl sdec et = 0
  · rw [update.trans (if_pos hoff)]
    refine ⟨wRes_mkWord _ _ (wRes_lt w), Nat.zero_le _, ?_, fun _ s hs => ?_⟩
    · rintro rfl
      refine ⟨rfl, rfl, wCarry_mkWord _ (by decide) (by decide) _, ?_⟩
      rw [g.corrected_zero]
      rfl
    · rw [Nat.zero_testBit] at hs
      exact Bool.noConfusion hs
  · rw [update.trans (if_neg hoff)]
    rcases hsel : g.selection w carry thl sdec et cls with ⟨rem, ta, sel⟩
    exact ⟨wRes_mkWord _ _ (wRes_lt w), Nat.min_le_right _ _, fun het => absurd (.inl het) hoff,
      fun hnodup s hs _ => (selectSlots_slots hnodup hsel hs).2⟩

end Sys2Proof.Machine
end

section
/-! The derate step (R308), the gating of strobes (R264, R269), a new media count (R301 to R304), one microstep (R357), a sensor
channel's run (R377, R378) and the solenoid stage (R415, R416, R438). -/

namespace Sys2Proof.Machine

/-! ## The derate step -/

theorem Quad.any_toList {α : Type} (q : Quad α) (f : α → Bool) : q.toList.any f = true ↔ ∃ p, f (q.get p) = true := by
  constructor
  · simp only [Quad.toList, List.any_cons, List.any_nil, Bool.or_false, Bool.or_eq_true]
    rintro (h | h | h | h)
    · exact ⟨0, h⟩
    · exact ⟨1, h⟩
    · exact ⟨2, h⟩
    · exact ⟨3, h⟩
  · rintro ⟨p, h⟩
    exact List.any_eq_true.mpr ⟨q.get p, by match p with | 0 | 1 | 2 | 3 => simp [Quad.toList, Quad.get], h⟩

/-- Some port is over its soft limit. -/
def Dev.anySoft (d : Dev) : Bool := d.heads.toList.any (·.soft)

theorem Dev.anySoft_iff (d : Dev) : d.anySoft = true ↔ ∃ p, (d.heads.get p).soft = true := Quad.any_toList _ _

/-- The four cases of the step: the first commit over a soft limit, a later one, the first under it, a later one under it. -/
theorem Dev.derateStep_cases (d : Dev) : ∃ l : Line, d.derateStep = { d with line := l } ∧
    ((d.anySoft = true ∧ d.line.derateOn = false ∧ l.derate = min 24 (d.line.derate + 1)) ∨
     (d.anySoft = true ∧ d.line.derateOn = true ∧ (l.derate = d.line.derate ∨ l.derate = min 24 (d.line.derate + 1))) ∨
     (d.anySoft = false ∧ (l.derate = d.line.derate ∨ l.derate = d.line.derate - 1))) := by
  unfold Dev.derateStep
  change ∃ l : Line, (if d.anySoft && !d.line.derateOn then _ else if d.anySoft then _ else _) = _ ∧ _
  cases hsoft : d.anySoft
  · simp only [Bool.false_and, Bool.false_eq_true, if_false]
    split
    · exact ⟨_, rfl, .inr (.inr ⟨trivial, .inl rfl⟩)⟩
    · split
      · exact ⟨_, rfl, .inr (.inr ⟨trivial, .inl rfl⟩)⟩
      · refine ⟨_, rfl, .inr (.inr ⟨trivial, ?_⟩)⟩
        dsimp only
        split
        · exact .inr rfl
        · exact .inl rfl
  · cases hon : d.line.derateOn
    · exact ⟨_, rfl, .inl ⟨rfl, rfl, rfl⟩⟩
    · refine ⟨_, rfl, .inr (.inl ⟨rfl, rfl, ?_⟩)⟩
      dsimp only
      split
      · exact .inr rfl
      · exact .inl rfl

/-- Settles O35, by the four cases of the step. -/
theorem derateMovesByOne : Obligations.DerateMovesByOne := by
  intro d hd
  obtain ⟨l, hstep, hcases⟩ := d.derateStep_cases
  rw [hstep]
  dsimp only
  refine ⟨by omega, by omega, by omega, fun hcool => ?_, fun hhot hon => ?_, rfl⟩
  · have : d.anySoft = false := by
      rw [← Bool.not_eq_true, d.anySoft_iff]
      rintro ⟨p, hp⟩
      rw [hcool p] at hp
      exact Bool.noConfusion hp
    rw [this] at hcases
    simp only [Bool.false_eq_true, false_and, false_or, true_and] at hcases
    omega
  · rw [d.anySoft_iff.mpr hhot, hon] at hcases
    simpa using hcases

/-! ## Strobes -/

/-- The strobe groups that a phase lists for a port. -/
def groupsOf (l : List (Nat × Nat)) (p : Fin 4) : BitVec 8 :=
  (l.filter fun x => x.1 = p.val).foldl (fun m x => m ||| BitVec.ofNat 8 (2 ^ x.2)) 0

theorem getLsbD_ofNat_two_pow {g : Nat} (hg : g < 8) (x : Nat) : (BitVec.ofNat 8 (2 ^ x)).getLsbD g = decide (x = g) := by
  rw [BitVec.getLsbD_ofNat, Nat.testBit_two_pow]
  simp [hg]

theorem getLsbD_foldl_groups {g : Nat} (hg : g < 8) (l : List (Nat × Nat)) (m : BitVec 8) :
    (l.foldl (fun m x => m ||| BitVec.ofNat 8 (2 ^ x.2)) m).getLsbD g = (m.getLsbD g || l.any fun x => x.2 = g) := by
  induction l generalizing m with
  | nil => rw [List.foldl_nil, List.any_nil, Bool.or_false]
  | cons x l ih => rw [List.foldl_cons, ih, BitVec.getLsbD_or, getLsbD_ofNat_two_pow hg, List.any_cons, Bool.or_assoc]

theorem getLsbD_groupsOf {g : Nat} (hg : g < 8) (l : List (Nat × Nat)) (p : Fin 4) :
    (groupsOf l p).getLsbD g = true ↔ (p.val, g) ∈ l := by
  rw [groupsOf, getLsbD_foldl_groups hg, show (0 : BitVec 8).getLsbD g = false from BitVec.getLsbD_zero, Bool.false_or,
    List.any_eq_true]
  constructor
  · rintro ⟨⟨a, b⟩, hmem, hb⟩
    simp only [List.mem_filter, decide_eq_true_eq] at hmem hb
    obtain ⟨hmem, rfl⟩ := hmem
    exact hb ▸ hmem
  · exact fun hmem => ⟨(p.val, g), by simpa using hmem, by simp⟩

/-- A port's strobes are held off: a kill input holds it, or its strobes of this line are suppressed. -/
def Dev.strobesOff (d : Dev) (p : Fin 4) : Bool :=
  (d.line.fire.map fun (f : FireLine) => f.killed.getLsbD p.val).getD true || !(d.heads.get p).kills.isEmpty

/-- What a phase does to one port. -/
theorem Dev.strobePhase_head (d : Dev) (l : List (Nat × Nat)) (p : Fin 4) :
    (d.strobePhase l).heads.get p = { d.heads.get p with strobes := if d.strobesOff p then 0 else groupsOf l p } :=
  Quad.get_mapIdx ..

theorem Dev.damage_heads (d : Dev) (ps : List (Fin 4)) (code : W16) (ref : W32) : (d.damage ps code ref).heads = d.heads := by
  unfold Dev.damage
  split
  · split
    · rfl
    · rfl
  · rfl

/-- A kill input at one port takes its strobes off and is held there, once. -/
theorem Dev.kill_heads (d : Dev) (p : Fin 4) (code : W16) (sub : Nat) :
    (d.kill [p] code sub).heads = d.heads.set p { d.heads.get p with
      strobes := 0, kills := if (d.heads.get p).kills.contains code then (d.heads.get p).kills else (d.heads.get p).kills ++ [code] } := by
  rw [Dev.kill]
  dsimp only [Dev.each4, List.foldl_cons, List.foldl_nil, Dev.onHead]
  rw [d.damage_heads]

theorem Dev.unkill_head (d : Dev) (p : Fin 4) (code : W16) :
    ((d.unkill [p] code).heads.get p).kills = (d.heads.get p).kills.filter (· != code) := by
  simp only [Dev.unkill, Dev.each4, List.foldl_cons, List.foldl_nil, Dev.onHead, Quad.get_set_self]

/-- Settles O37: a phase port by port, a kill input at one port. -/
theorem strobeGating : Obligations.StrobeGating := by
  refine ⟨fun d l p => ⟨fun hoff => ?held, fun f g hg hf hkilled hkills => ?free, rfl, ?frame⟩,
    fun d p q code sub => ⟨?off, ?stays, ?others, ?released⟩⟩
  case held =>
    have : d.strobesOff p = true := by
      rcases hoff with hk | hf | ⟨f, hf, hk⟩
      · simp [Dev.strobesOff, hk]
      · simp [Dev.strobesOff, hf]
      · simp [Dev.strobesOff, hf, hk]
    rw [d.strobePhase_head, this]
    rfl
  case free =>
    have : d.strobesOff p = false := by
      rw [Dev.strobesOff, hf, hkills, Option.map_some, Option.getD_some, hkilled]
      rfl
    rw [d.strobePhase_head, this]
    exact getLsbD_groupsOf hg l p
  case frame => rw [d.strobePhase_head]
  case off => rw [d.kill_heads, Quad.get_set_self]
  case stays =>
    rw [d.kill_heads, Quad.get_set_self]
    dsimp only
    split
    · next h => exact List.contains_iff_mem.mp h
    · exact List.mem_append_right _ List.mem_cons_self
  case others => exact fun hq => by rw [d.kill_heads, Quad.get_set_ne _ _ _ _ hq.symm]
  case released =>
    rw [Dev.unkill_head]
    simp

/-! ## A new media count -/

/-- A rise of the watermark raises no tick where lines do not run on encoder ticks. -/
theorem Dev.markRises_of_tickSource (d : Dev) (h : d.tickSource ≠ 1) : d.markRises = d := by
  simp [Dev.markRises, h]

/-- A count within the tolerance ends an excursion and is none. -/
theorem Dev.fallsBack_within (d : Dev) (h : d.mot.mark - (mTol d.curMedia : Int) ≤ d.mot.menc) :
    d.fallsBack = { d with mot.excursion := false } := if_pos h

theorem Dev.jamCheck_off (d : Dev) (h : d.jamOnAx0 = false) : d.jamCheck = d := by
  simp [Dev.jamCheck, h]

/-- Settles O41: the watermark takes the count or stands, and no excursion, no tick and no jam follow. -/
theorem watermarkOnlyRises : Obligations.WatermarkOnlyRises := by
  intro d m htick hjam htol
  rw [Dev.counted]
  dsimp only
  by_cases hrise : d.mot.mark < m
  · rw [Int.max_eq_right (Int.le_of_lt hrise)] at htol ⊢
    rw [if_pos hrise, Dev.markRises_of_tickSource _ (by exact htick), Dev.fallsBack_within _ (by exact htol),
      Dev.jamCheck_off _ (by exact hjam)]
  · rw [Int.max_eq_left (Int.not_lt.mp hrise)] at htol ⊢
    rw [if_neg hrise, Dev.fallsBack_within _ (by exact htol), Dev.jamCheck_off _ (by exact hjam)]

/-! ## One microstep -/

theorem Dev.onAxis_get_self (d : Dev) (x : Fin 4) (f : Axis → Axis) : (d.onAxis x f).axes.get x = f (d.axes.get x) :=
  Quad.get_set_self ..

theorem Dev.onAxis_get_ne (d : Dev) {x y : Fin 4} (h : y ≠ x) (f : Axis → Axis) : (d.onAxis x f).axes.get y = d.axes.get y :=
  Quad.get_set_ne _ _ _ _ h.symm

/-- The marks of a full step: the counts and on times begin anew. -/
def Axis.fullStepped (a : Axis) (now : Ts) : Axis :=
  { a with sinceFull := 0, fullSteps := a.fullSteps + 1, fullTs := now, a := { a.a with stepOn := 0 }, b := { a.b with stepOn := 0 } }

/-- A full step of an axis without stall detection marks the step and counts it in the ledger. -/
theorem Dev.fullStep_of_no_stall (d : Dev) (x : Fin 4) (h : eStallOn (d.axes.get x).entry = false) :
    d.fullStep x = (d.onAxis x fun a => a.fullStepped d.clk.now).ledAdd (0x1C0 + 32 * x.val + 8) 6 1 := by
  have hentry : eStallOn (((d.onAxis x fun a => a.fullStepped d.clk.now).ledAdd (0x1C0 + 32 * x.val + 8) 6 1).axes.get x).entry = false := by
    rw [Dev.ledAdd_axes, Dev.onAxis_get_self]
    exact h
  rw [Dev.fullStep]
  exact if_pos (by rw [Bool.or_eq_true, Bool.not_eq_true']; exact .inl hentry)

/-- The axis after one microstep, before what a full step marks. -/
def Axis.stepped (a : Axis) (fwd : Bool) : Axis := { a.move1 fwd with sinceFull := a.sinceFull + 1, readyTs := none }

/-- One microstep of an axis without stall detection: it moves, and a full step of an energised axis is marked and counted. -/
theorem Dev.microstep_of_no_stall (d : Dev) (x : Fin 4) (fwd : Bool) (h : eStallOn (d.axes.get x).entry = false) :
    d.microstep x fwd = (d.onAxis x fun a => a.stepped fwd) ∨
    ((d.axes.get x).energised = true ∧
      d.microstep x fwd = ((d.onAxis x fun a => a.stepped fwd).onAxis x fun a => a.fullStepped d.clk.now).ledAdd (0x1C0 + 32 * x.val + 8) 6 1) := by
  have hself := d.onAxis_get_self x fun a => a.stepped fwd
  change (if _ then (d.onAxis x fun a => a.stepped fwd).fullStep x else d.onAxis x fun a => a.stepped fwd) = _ ∨ _ ∧
    (if _ then (d.onAxis x fun a => a.stepped fwd).fullStep x else d.onAxis x fun a => a.stepped fwd) = _
  split
  · next hfull =>
    rw [Bool.and_eq_true] at hfull
    refine .inr ⟨?_, Dev.fullStep_of_no_stall _ x ?_⟩
    · exact (congrArg Axis.energised hself).symm.trans hfull.1
    · rw [hself]
      exact h
  · exact .inl rfl

/-- Settles O42, by the two cases of a microstep. -/
theorem microstepMovesOneAxis : Obligations.MicrostepMovesOneAxis := by
  intro d x fwd h
  have moves (a : Axis) : (a.stepped fwd).pos = a.pos + (if fwd then 1 else -1) := by cases fwd <;> rfl
  rcases d.microstep_of_no_stall x fwd h with hstep | ⟨henergised, hstep⟩
  · rw [hstep]
    refine ⟨?_, fun y hy => d.onAxis_get_ne hy _, rfl, fun _ => rfl⟩
    rw [d.onAxis_get_self, moves]
  · rw [hstep]
    refine ⟨?_, fun y hy => ?_, rfl, fun hoff => ?_⟩
    · rw [Dev.ledAdd_axes, Dev.onAxis_get_self, Dev.onAxis_get_self]
      exact moves _
    · rw [Dev.ledAdd_axes, Dev.onAxis_get_ne _ hy, Dev.onAxis_get_ne _ hy]
    · rw [henergised] at hoff
      exact Bool.noConfusion hoff

/-! ## A sensor channel -/

/-- The run that a sample makes: one longer where the sample is past the hysteresis, else none. -/
def Track.newRun (t : Track) (s th h : Int) (r : Nat) : Nat :=
  if h ≤ (if t.space then -s else s) * ((r : Int) - th) then t.run + 1 else 0

/-- A sample that completes the run changes the state and ends the run, any other keeps the run it makes. -/
theorem Track.next_cases (t : Track) (s th h : Int) (n : Nat) (p : Int) (r : Nat) :
    (t.newRun s th h r = n ∧ (t.next s th h n p r).2 = true ∧ (t.next s th h n p r).1.space = !t.space ∧
      (t.next s th h n p r).1.run = 0) ∨
    (t.newRun s th h r ≠ n ∧ (t.next s th h n p r).2 = false ∧ (t.next s th h n p r).1.space = t.space ∧
      (t.next s th h n p r).1.run = t.newRun s th h r) := by
  unfold Track.next
  extract_lets dir cross run
  have hrun : run = t.newRun s th h r := rfl
  rw [← hrun]
  split
  · next hn => exact .inl ⟨hn, rfl, rfl, rfl⟩
  · next hn => exact .inr ⟨hn, rfl, rfl, rfl⟩

theorem Track.newRun_le (t : Track) (s th h : Int) (r : Nat) : t.newRun s th h r ≤ t.run + 1 :=
  iteInduction (motive := (· ≤ t.run + 1)) (fun _ => Nat.le_refl _) fun _ => Nat.zero_le _

/-- Settles O46, by whether the sample completes the run. -/
theorem sensorChangesAfterItsRun : Obligations.SensorChangesAfterItsRun := by
  intro t sg th h n p r hn hrun
  have short := t.newRun_le sg th h r
  rcases t.next_cases sg th h n p r with ⟨hnew, hchange, hspace, hend⟩ | ⟨hnew, hchange, hspace, hend⟩
  · rw [hchange, hspace, hend]
    refine ⟨iff_of_true rfl ?_, rfl, hn, fun _ => rfl⟩
    by_cases hpast : h ≤ (if t.space then -sg else sg) * ((r : Int) - th)
    · exact ⟨(if_pos hpast).symm.trans hnew, hpast⟩
    · have : 0 = n := (if_neg hpast).symm.trans hnew
      omega
  · rw [hchange, hspace, hend]
    refine ⟨iff_of_false (by decide) ?_, rfl, by omega, fun hback => if_neg hback⟩
    rintro ⟨hlast, hpast⟩
    exact hnew ((if_pos hpast).trans hlast)

/-! ## The solenoid stage -/

theorem Dev.onSol_get_self (d : Dev) (c : Fin 8) (f : Sol → Sol) : (d.onSol c f).sol.get c = f (d.sol.get c) :=
  Oct.get_set_self ..

theorem Dev.onSol_get_ne (d : Dev) {c k : Fin 8} (h : k ≠ c) (f : Sol → Sol) : (d.onSol c f).sol.get k = d.sol.get k :=
  Oct.get_set_ne _ _ _ _ h.symm

/-- A gate's level takes its time with it when it changes. -/
def Sol.setGate (s : Sol) (on : Bool) (now : Ts) : Sol := if s.gate = on then s else { s with gate := on, gateTs := now }

theorem Sol.setGate_gate (s : Sol) (on : Bool) (now : Ts) : (s.setGate on now).gate = on := by
  unfold Sol.setGate
  split
  · assumption
  · rfl

theorem Sol.setGate_phase (s : Sol) (on : Bool) (now : Ts) : (s.setGate on now).phase = s.phase := by
  unfold Sol.setGate
  split
  · rfl
  · rfl

/-- A channel whose pulse is released, unless it is idle. -/
def Sol.release (s : Sol) (now : Ts) : Sol :=
  if s.phase == .idle then s else { s with phase := .released, relTs := now, phaseTs := now, regulating := false }

theorem Dev.release1_get_self (d : Dev) (c : Fin 8) :
    (d.release1 c).sol.get c = ((d.sol.get c).setGate false d.clk.now).release d.clk.now := by
  rw [Dev.release1, Dev.gate, Dev.onSol_get_self, Dev.onSol_get_self]
  rfl

theorem Sol.release_gate (s : Sol) (now : Ts) : (s.release now).gate = s.gate := by
  unfold Sol.release
  split
  · rfl
  · rfl

theorem pairOf_even (k : Fin 4) : pairOf (fin8Of (2 * k.val)) = k := by
  revert k
  decide

theorem pairOf_odd (k : Fin 4) : pairOf (fin8Of (2 * k.val + 1)) = k := by
  revert k
  decide

theorem channel_of_pair (c : Fin 8) : c = fin8Of (2 * (pairOf c).val) ∨ c = fin8Of (2 * (pairOf c).val + 1) := by
  revert c
  decide

/-- What one of a pair's two channels does, a channel of the pair does. -/
theorem pair_or_iff (f : Fin 8 → Bool) (k : Fin 4) :
    (f (fin8Of (2 * k.val)) || f (fin8Of (2 * k.val + 1))) = true ↔ ∃ c, pairOf c = k ∧ f c = true := by
  rw [Bool.or_eq_true]
  constructor
  · rintro (h | h)
    · exact ⟨_, pairOf_even k, h⟩
    · exact ⟨_, pairOf_odd k, h⟩
  · rintro ⟨c, rfl, h⟩
    rcases channel_of_pair c with hc | hc
    · exact .inl ((congrArg f hc).symm.trans h)
    · exact .inr ((congrArg f hc).symm.trans h)

theorem Sol.pulsing_iff (s : Sol) : s.pulsing = true ↔ s.phase = .peak ∨ s.phase = .hold := by
  rw [Sol.pulsing, Bool.or_eq_true, beq_iff_eq, beq_iff_eq]

theorem Oct.exists_of_any {α : Type} (q : Oct α) (f : α → Bool) (h : q.toList.any f = true) : ∃ c, f (q.get c) = true := by
  simp only [Oct.toList, List.any_cons, List.any_nil, Bool.or_false, Bool.or_eq_true] at h
  rcases h with h | h | h | h | h | h | h | h
  · exact ⟨0, h⟩
  · exact ⟨1, h⟩
  · exact ⟨2, h⟩
  · exact ⟨3, h⟩
  · exact ⟨4, h⟩
  · exact ⟨5, h⟩
  · exact ⟨6, h⟩
  · exact ⟨7, h⟩

/-- Settles O48: one channel's release, and the levels of one pair. -/
theorem stageFollowsThePhases : Obligations.StageFollowsThePhases := by
  refine ⟨fun d c => ⟨?gate, fun hbusy => ?released, fun hidle => ?idle, fun k hk => ?others, rfl⟩, fun d k => ⟨?pair, ?boost, rfl⟩⟩
  case gate => rw [d.release1_get_self, Sol.release_gate, Sol.setGate_gate]
  case released =>
    rw [d.release1_get_self, Sol.release, Sol.setGate_phase, if_neg (by simpa using hbusy)]
    exact ⟨rfl, rfl⟩
  case idle =>
    rw [d.release1_get_self, Sol.release, Sol.setGate_phase, if_pos (by simpa using hidle), Sol.setGate_phase, hidle]
  case others => rw [Dev.release1, Dev.gate, Dev.onSol_get_ne _ hk, Dev.onSol_get_ne _ hk]
  case pair =>
    rw [Dev.stageLevels]
    dsimp only
    rw [Quad.get_mapIdx, Bool.and_eq_true, pair_or_iff fun c => (d.sol.get c).pulsing, Bool.not_eq_true']
    simp only [Sol.pulsing_iff]
  case boost =>
    rw [Dev.stageLevels]
    dsimp only
    simp only [Bool.and_eq_true, Bool.not_eq_true']
    rintro ⟨⟨-, hover⟩, hany⟩
    obtain ⟨c, hc⟩ := Oct.exists_of_any _ _ hany
    exact ⟨hover, c, beq_iff_eq.mp hc⟩

end Sys2Proof.Machine
end

section
/-! Check words (log entry 7), protected identifiers (R448) and the judgement of serial frames (R450 to R452). -/

namespace Sys2Proof.Machine

/-! ## Check words -/

/-- The top bit of a shifted register tells whether the polynomial was added. -/
theorem getLsbD_crcBit_top (c : W32) : (crcBit c).getLsbD 31 = c.getLsbD 0 := by
  unfold crcBit
  split
  · next h => rw [h]; simp
  · next h =>
    rw [(Bool.not_eq_true _).mp h]
    simp

theorem crcBit_injective : Function.Injective crcBit := by
  intro c c' h
  have low : c.getLsbD 0 = c'.getLsbD 0 := by rw [← getLsbD_crcBit_top, ← getLsbD_crcBit_top, h]
  have shifted : c >>> 1 = c' >>> 1 := by
    unfold crcBit at h
    rw [low] at h
    split at h
    · exact (BitVec.xor_left_inj _).mp h
    · exact h
  apply BitVec.eq_of_getLsbD_eq
  intro i hi
  cases i with
  | zero => exact low
  | succ i =>
    have := congrArg (fun x : W32 => x.getLsbD i) shifted
    simpa [Nat.add_comm] using this

/-- Eight bits of the register's run: no two registers run into one. -/
theorem crcBit_eight_injective :
    Function.Injective fun c => crcBit (crcBit (crcBit (crcBit (crcBit (crcBit (crcBit (crcBit c))))))) := by
  have h := crcBit_injective
  exact h.comp (h.comp (h.comp (h.comp (h.comp (h.comp (h.comp h))))))

theorem crcByte_injective_register (b : Byte) : Function.Injective fun c => crcByte c b :=
  fun _ _ h => (BitVec.xor_left_inj _).mp (crcBit_eight_injective h)

theorem crcByte_injective_byte (c : W32) : Function.Injective (crcByte c) := by
  intro x y h
  have widened : x.zeroExtend 32 = y.zeroExtend 32 := (BitVec.xor_right_inj _).mp (crcBit_eight_injective h)
  have := congrArg BitVec.toNat widened
  bv_omega

theorem crcRun_append (c : W32) (before after : List Byte) : crcRun c (before ++ after) = crcRun (crcRun c before) after :=
  List.foldl_append

theorem crcRun_injective_register (bs : List Byte) : Function.Injective fun c => crcRun c bs := by
  induction bs with
  | nil => exact Function.injective_id
  | cons b bs ih => exact ih.comp (crcByte_injective_register b)

/-- Settles O58: each byte's run is one to one, in the register and in the byte. -/
theorem checkWordSeesOneByte : Obligations.CheckWordSeesOneByte := by
  intro before after x y hne heq
  unfold crc32c at heq
  rw [BitVec.not_inj, crcRun_append, crcRun_append] at heq
  exact hne (crcByte_injective_byte _ (crcRun_injective_register after heq))

/-! ## Protected identifiers -/

/-- Settles O52: the 64 identifiers one by one. -/
theorem protectedIdentifier : Obligations.ProtectedIdentifier := by
  unfold Obligations.ProtectedIdentifier
  decide

/-! ## The judgement of a frame -/

/-- A fixed rate does not fail, and no frame changes it (R460). -/
theorem Dev.rateFails_of_fixed (d : Dev) (f : UFrame) (h : d.uartMode ≠ 3) : d.rateFails f = false := by
  simp [Dev.rateFails, h]

theorem Dev.takeRate_of_fixed (d : Dev) (f : UFrame) (h : d.uartMode ≠ 3) : d.takeRate f = d := by
  simp [Dev.takeRate, h]
  split <;> rfl

/-- A frame is taken as the next one: its opening is spent. -/
def Dev.frameClosed (d : Dev) : Dev := { d with uart := { d.uart with opened := false } }

/-- The judgement of a frame of a fixed rate while the device is awake, in its order. -/
theorem Dev.uartFrame_fixed (d : Dev) (f : UFrame) (hmode : d.uartMode ≠ 3) (hawake : d.sys.sleep = .awake) :
    d.uartFrame f =
      if (frameOf f).bytes.getD 0 0 ≠ 0x55 then d.frameClosed.frameBad
      else if !pidOk ((frameOf f).bytes.getD 1 0) then d.frameClosed.frameBad
      else if !d.accepts ((frameOf f).bytes.getD 1 0) then
        (if (lostFor f (frameOf f) false).isSome then d.frameClosed.frameBad else d.frameClosed)
      else if (frameOf f).len = some 0 && ((frameOf f).bytes.getD 1 0).toNat % 64 = 0x3F && (lostFor f (frameOf f) false).isNone then
        d.frameClosed
      else match lostFor f (frameOf f) false with
        | some c => (d.frameClosed.noisy f).discard f (frameOf f) c
        | none => (d.frameClosed.noisy f).takeFrame (frameOf f) := by
  unfold Dev.uartFrame
  extract_lets p pid u e rated counted u'
  have hrate : e.rateFails f = false := e.rateFails_of_fixed f hmode
  have hrated : rated = e := e.takeRate_of_fixed f hmode
  have hcounted : counted = e.noisy f := by simp only [counted, hrated]
  have hsleep : (e.sys.sleep == .dormant) = false := by rw [show e.sys.sleep = .awake from hawake]; rfl
  have hstill : ((e.noisy f).sys.sleep != .dormant) = true := by rw [show (e.noisy f).sys.sleep = .awake from hawake]; rfl
  simp only [hrate, hrated, hcounted, hsleep, hstill, Bool.false_and, Bool.false_eq_true, if_false, Bool.or_false,
    decide_eq_true_eq, if_true]
  rfl

/-- Settles O51, by the order of the judgement. -/
theorem serialFramesAreJudged : Obligations.SerialFramesAreJudged := by
  rintro d _ f _ hmode hawake rfl rfl
  rw [d.uartFrame_fixed f hmode hawake]
  refine ⟨?bad, fun hsync hpid => ⟨fun hother => ?other, fun hown hplain => ⟨fun c hc => ?lost, fun hnone => ?taken⟩⟩⟩
  case bad =>
    rintro (hsync | hpid)
    · exact if_pos hsync
    · rw [hpid]
      exact (congrArg (ite _ _) (if_pos rfl)).trans (ite_self _)
  case other =>
    simp only [hsync, hpid, hother, ne_eq, not_true_eq_false, Bool.not_true, Bool.not_false, Bool.false_eq_true, if_false, if_true]
    rfl
  case lost =>
    simp only [hsync, hpid, hown, hplain, hc, ne_eq, not_true_eq_false, Bool.not_true, Bool.false_eq_true, if_false, decide_false,
      Bool.and_false, Bool.false_and]
    rfl
  case taken =>
    simp only [hsync, hpid, hown, hplain, hnone, ne_eq, not_true_eq_false, Bool.not_true, Bool.false_eq_true, if_false, decide_false,
      Bool.and_false, Bool.false_and]
    rfl

end Sys2Proof.Machine
end


section
/-! The status ring and the job ring: what a run of bytes written into the window reads back as, where a status record goes,
how a job slot is examined, and what admission does. -/

namespace Sys2Proof.Machine

/-! ## A run of bytes -/

theorem Dev.ram_poke_cons (d : Dev) {a : Nat} {v : Byte} {vs : List Byte} (h : a + (v :: vs).length ≤ 0x400000) (b : Nat) :
    (d.poke a (v :: vs)).ram b = ((d.poke a [v]).poke (a + 1) vs).ram b := by
  rw [List.length_cons] at h
  have one : d.poke a [v] = { d with win.mem := Memory.putAll d.win.mem a [v] } :=
    if_pos (by rw [List.length_singleton]; omega)
  have rest (e : Dev) : e.poke (a + 1) vs = { e with win.mem := Memory.putAll e.win.mem (a + 1) vs } := if_pos (by omega)
  have all : d.poke a (v :: vs) = { d with win.mem := Memory.putAll d.win.mem a (v :: vs) } :=
    if_pos (by rw [List.length_cons]; omega)
  rw [all, rest, one]
  rfl

/-- A run of bytes leaves every byte outside it. -/
theorem Dev.ram_poke_outside : ∀ (vs : List Byte) (d : Dev) (a b : Nat), Memory.wf d.win.mem = true →
    (b < a ∨ a + vs.length ≤ b) → (d.poke a vs).ram b = d.ram b
  | [], d, a, b, _, _ => by
    unfold Dev.poke
    split <;> rfl
  | v :: vs, d, a, b, hm, hb => by
    by_cases hin : a + (v :: vs).length ≤ 0x400000
    · rw [List.length_cons] at hb
      rw [d.ram_poke_cons hin, Dev.ram_poke_outside vs _ _ _ (d.poke_wf a [v] hm) (by omega),
        d.ram_poke_ne a b v (by omega) hm]
    · rw [Dev.poke, if_neg hin]

/-- A run of bytes reads back. -/
theorem Dev.ram_poke_inside : ∀ (vs : List Byte) (d : Dev) (a i : Nat), Memory.wf d.win.mem = true →
    a + vs.length ≤ 0x400000 → i < vs.length → (d.poke a vs).ram (a + i) = vs.getD i 0
  | [], _, _, _, _, _, hi => absurd hi (Nat.not_lt_zero _)
  | v :: vs, d, a, i, hm, hin, hi => by
    rw [d.ram_poke_cons hin]
    rw [List.length_cons] at hin hi
    cases i with
    | zero => rw [Dev.ram_poke_outside vs _ _ _ (d.poke_wf a [v] hm) (by omega), Nat.add_zero, d.ram_poke_self a v (by omega) hm,
        List.getD_cons_zero]
    | succ j => rw [show a + (j + 1) = a + 1 + j by omega,
        Dev.ram_poke_inside vs _ _ _ (d.poke_wf a [v] hm) (by omega) (by omega), List.getD_cons_succ]

/-! ## The status ring -/

/-- Without lost NOTE events there is no STATUS_LOST to post. -/
theorem Dev.reportLost_of_none (d : Dev) (h : d.rings.lost = 0) : d.reportLost = d := by
  simp [Dev.reportLost, h]

/-- The record goes into its slot without its owner byte, and the owner byte is written last. -/
theorem Dev.writeStatus_eq {d : Dev} {q : QRec} {rest : List QRec} (hq : d.rings.queue = q :: rest) (hlost : d.rings.lost = 0)
    (hwait : d.rings.waiting = []) (hown : d.owns (statusSlot d.rings.statusPtr) = true) :
    d.writeStatus =
      { (d.poke (statusSlot d.rings.statusPtr + 1) (q.bytes.drop 1)).handBack (statusSlot d.rings.statusPtr) with
        rings := { d.rings with
          queue := rest, statusPtr := (d.rings.statusPtr + 1) % 1024
          faultSlots := if rType q.bytes = 0x82 then (d.rings.statusPtr, rSeq q.bytes) :: d.rings.faultSlots
            else d.rings.faultSlots } } := by
  unfold Dev.writeStatus
  simp only [hq, hown, if_true, Dev.handBack_rings, Dev.poke_rings, hwait, List.length_nil, Rings.drain]
  exact Dev.reportLost_of_none _ hlost

/-- Settles O24: the slot's 63 bytes behind its owner byte are one run, and the owner byte is handed back behind it. -/
theorem statusRecordTakesItsSlot : Obligations.StatusRecordTakesItsSlot := by
  intro d q rest hq hm hptr hlen hlost hwait
  refine ⟨fun hown => ?hosts, fun hown => ?devices⟩
  case hosts => simp only [Dev.writeStatus, hq, hown, Bool.false_eq_true, if_false]
  case devices =>
    rw [d.writeStatus_eq hq hlost hwait hown]
    obtain ⟨a, ha⟩ : ∃ a, a = statusSlot d.rings.statusPtr := ⟨_, rfl⟩
    have inside : a + 64 ≤ 0x400000 := by rw [ha, statusSlot]; omega
    have body : (q.bytes.drop 1).length = 63 := by rw [List.length_drop, hlen]
    have hm' := d.poke_wf (a + 1) (q.bytes.drop 1) hm
    rw [← ha]
    refine ⟨rfl, rfl, (d.poke (a + 1) _).ram_handBack_self (by omega) hm', fun i hi hi' => ?_, fun b hb => ?_⟩
    · calc ((d.poke (a + 1) (q.bytes.drop 1)).handBack a).ram (a + i)
          = (d.poke (a + 1) (q.bytes.drop 1)).ram (a + 1 + (i - 1)) := by
            rw [Dev.ram_handBack_ne _ (by omega) hm', show a + i = a + 1 + (i - 1) by omega]
        _ = (q.bytes.drop 1).getD (i - 1) 0 := Dev.ram_poke_inside _ d _ _ hm (by omega) (by omega)
        _ = q.bytes.getD i 0 := by
            rw [List.getD_eq_getElem?_getD, List.getElem?_drop, show 1 + (i - 1) = i by omega, List.getD_eq_getElem?_getD]
    · calc ((d.poke (a + 1) (q.bytes.drop 1)).handBack a).ram b
          = (d.poke (a + 1) (q.bytes.drop 1)).ram b := Dev.ram_handBack_ne _ (by omega) hm'
        _ = d.ram b := Dev.ram_poke_outside _ d _ _ hm (by omega)

end Sys2Proof.Machine
end


section
/-! The job ring: how a slot is examined, which records an admission takes, and what admitting one does (R121 to R139). -/

namespace Sys2Proof.Machine

/-! ## What posting a record leaves of the rings -/

/-- A status record touches the status queue, its counter and the count of lost NOTE events, and nothing else of the rings. -/
theorem Dev.make_rings (d : Dev) (k : Keep) (ty flags mask : Nat) (tag : W32) (code : W16) (ts tick : Ts) (body : List Byte) :
    { (d.make k ty flags mask tag code ts tick body).2.rings with
      queue := d.rings.queue, waiting := d.rings.waiting, statusSeq := d.rings.statusSeq
      lost := d.rings.lost, lostFirst := d.rings.lostFirst, lostLast := d.rings.lostLast } = d.rings := by
  unfold Dev.make Rings.admitRec
  split
  · rfl
  · split
    · rfl
    · split <;> rfl

@[simp] theorem Dev.make_jobPtr (d : Dev) (k : Keep) (ty flags mask : Nat) (tag : W32) (code : W16) (ts tick : Ts)
    (body : List Byte) : (d.make k ty flags mask tag code ts tick body).2.rings.jobPtr = d.rings.jobPtr := by
  have h := congrArg Rings.jobPtr (d.make_rings k ty flags mask tag code ts tick body)
  exact h

@[simp] theorem Dev.make_posted (d : Dev) (k : Keep) (ty flags mask : Nat) (tag : W32) (code : W16) (ts tick : Ts)
    (body : List Byte) : (d.make k ty flags mask tag code ts tick body).2.rings.posted = d.rings.posted := by
  have h := congrArg Rings.posted (d.make_rings k ty flags mask tag code ts tick body)
  exact h

theorem Dev.note_jobPtr (d : Dev) (code : W16) (detail : List Byte) : (d.note code detail).rings.jobPtr = d.rings.jobPtr := by
  simp only [Dev.note, Dev.report, Dev.event, Dev.make_jobPtr]

theorem Dev.note_posted (d : Dev) (code : W16) (detail : List Byte) : (d.note code detail).rings.posted = d.rings.posted := by
  simp only [Dev.note, Dev.report, Dev.event, Dev.make_posted]

/-! ## Examining a slot -/

section Examine

variable {d : Dev}

theorem Dev.examine_of_host (h : d.owns (jobSlot d.rings.jobPtr) = false) : d.examine = d := by
  simp only [Dev.examine, h, Bool.not_false, Bool.true_or, if_true]

/-- Nothing is posted of the slot at the pointer, so it is looked at. -/
theorem Dev.examine_looks (hown : d.owns (jobSlot d.rings.jobPtr) = true) (hnew : ∀ x ∈ d.rings.posted, x.2 ≠ d.rings.jobPtr) :
    (!d.owns (jobSlot d.rings.jobPtr) || d.rings.posted.any fun x => x.2 == d.rings.jobPtr) = false := by
  rw [hown, Bool.not_true, Bool.false_or, List.any_eq_false]
  exact fun x hx heq => hnew x hx (eq_of_beq heq)

theorem Dev.examine_of_badCrc (hown : d.owns (jobSlot d.rings.jobPtr) = true)
    (hnew : ∀ x ∈ d.rings.posted, x.2 ≠ d.rings.jobPtr) (hcrc : jobCrcOk (d.rams (jobSlot d.rings.jobPtr) 64) = false) :
    d.examine = (d.handBack (jobSlot d.rings.jobPtr)).note cRecordCrc
      (slotDetail 0 (d.rams (jobSlot d.rings.jobPtr) 64) d.rings.jobPtr) := by
  simp only [Dev.examine, Dev.examine_looks hown hnew, Bool.false_eq_true, if_false, hcrc, Bool.not_false, if_true]

theorem Dev.examine_of_badSeq (hown : d.owns (jobSlot d.rings.jobPtr) = true)
    (hnew : ∀ x ∈ d.rings.posted, x.2 ≠ d.rings.jobPtr) (hcrc : jobCrcOk (d.rams (jobSlot d.rings.jobPtr) 64) = true)
    {q : W32} (hnext : d.rings.jobNext = some q) (hseq : rSeq (d.rams (jobSlot d.rings.jobPtr) 64) ≠ q) :
    d.examine = (d.handBack (jobSlot d.rings.jobPtr)).note cRecordSeq
      (slotDetail q.toNat (d.rams (jobSlot d.rings.jobPtr) 64) d.rings.jobPtr) := by
  simp only [Dev.examine, Dev.examine_looks hown hnew, Bool.false_eq_true, if_false, hcrc, Bool.not_true, hnext, ne_eq, hseq,
    not_false_eq_true, if_true]

/-- The first record after the reset is in sequence whatever its number is, and any other when it has the expected one. -/
theorem Dev.examine_of_inSequence (hown : d.owns (jobSlot d.rings.jobPtr) = true)
    (hnew : ∀ x ∈ d.rings.posted, x.2 ≠ d.rings.jobPtr) (hcrc : jobCrcOk (d.rams (jobSlot d.rings.jobPtr) 64) = true)
    (hnext : d.rings.jobNext = none ∨ d.rings.jobNext = some (rSeq (d.rams (jobSlot d.rings.jobPtr) 64))) :
    d.examine = { d with rings := { d.rings with
      posted := d.rings.posted ++ [(d.rams (jobSlot d.rings.jobPtr) 64, d.rings.jobPtr)]
      jobPtr := (d.rings.jobPtr + 1) % 1024
      jobNext := some (rSeq (d.rams (jobSlot d.rings.jobPtr) 64) + 1) } } := by
  rcases hnext with h | h <;>
  simp only [Dev.examine, Dev.examine_looks hown hnew, Bool.false_eq_true, if_false, hcrc, Bool.not_true, h, ne_eq,
    not_true_eq_false]

end Examine

/-- Settles O25: one lemma per outcome of looking at the slot. -/
theorem jobSlotIsExamined : Obligations.JobSlotIsExamined := by
  rintro d r rfl
  refine ⟨?command, Dev.examine_of_host, fun hown hnew => ⟨fun hcrc => ?badCrc, fun hcrc q => Dev.examine_of_badSeq hown hnew hcrc,
    Dev.examine_of_inSequence hown hnew⟩⟩
  case command =>
    rintro s rfl hop hready
    exact exec_of_effect (if_pos (by rw [hop, hready, Bool.and_self]))
  case badCrc =>
    have h := Dev.examine_of_badCrc hown hnew hcrc
    rw [h, Dev.note_jobPtr, Dev.note_posted, Dev.handBack_rings]
    exact ⟨rfl, rfl, rfl⟩

/-! ## Admission -/

section Admission

variable {d : Dev} {raw : List Byte} {slot : Nat} {rest : List (List Byte × Nat)}

theorem Dev.admitAll_stop (n : Nat) {p : Nat → Bool} (h : ∀ raw slot rest, d.rings.posted = (raw, slot) :: rest →
    (d.mayAdmit && p (rType raw)) = false) : d.admitAll p n = d := by
  cases n with
  | zero => rfl
  | succ n =>
    unfold Dev.admitAll
    split
    · rfl
    · next raw slot rest hp => exact if_neg (by rw [h raw slot rest hp]; exact Bool.false_ne_true)

theorem Dev.admitAll_held (n : Nat) (p : Nat → Bool) (h : d.mayAdmit = false) : d.admitAll p n = d :=
  Dev.admitAll_stop n fun _ _ _ _ => by rw [h, Bool.false_and]

theorem admitType_head {t : Nat} (hp : d.rings.posted = (raw, slot) :: rest) (hmay : d.mayAdmit = true) (ht : rType raw = t) :
    admitType t d = (d.admitHead raw slot rest).admitAll (fun t => !knownType t) 1024 := by
  simp only [admitType, Dev.admitIf, hp, hmay, ht, beq_self_eq_true, Bool.and_self, if_true]

/-- Nothing is admitted while none may be, nor when the first posted record has a command of its own and it is another. -/
theorem admitType_nothing {t : Nat} (hp : d.rings.posted = (raw, slot) :: rest)
    (h : d.mayAdmit = false ∨ (rType raw ≠ t ∧ knownType (rType raw) = true)) : admitType t d = d := by
  have first : (d.mayAdmit && rType raw == t) = false := by
    rcases h with hmay | ⟨hne, -⟩
    · rw [hmay, Bool.false_and]
    · rw [beq_false_of_ne hne, Bool.and_false]
  have others : d.admitAll (fun t => !knownType t) 1024 = d := by
    rcases h with hmay | ⟨-, hknown⟩
    · exact Dev.admitAll_held 1024 _ hmay
    · refine Dev.admitAll_stop 1024 fun raw' slot' rest' hp' => ?_
      cases hp.symm.trans hp'
      rw [hknown, Bool.not_true, Bool.and_false]
  simp only [admitType, Dev.admitIf, hp, first, Bool.false_eq_true, if_false, others]

end Admission

/-- Settles O26: a command of the job ring admits a posted record of its own type. -/
theorem recordsAreAdmitted : Obligations.RecordsAreAdmitted := by
  intro s raw slot rest c t hc hp
  have own : effect c s.dev = admitType t s.dev ∧ c ≠ .powerOnReset ∧ ∀ r m i n l, c ≠ .testPortTckEdge r m i n l := by
    simp only [List.mem_cons, List.not_mem_nil, or_false, Prod.mk.injEq] at hc
    rcases hc with ⟨rfl, rfl⟩ | ⟨rfl, rfl⟩ | ⟨rfl, rfl⟩ | ⟨rfl, rfl⟩ | ⟨rfl, rfl⟩ | ⟨rfl, rfl⟩ | ⟨rfl, rfl⟩ | ⟨rfl, rfl⟩ |
      ⟨rfl, rfl⟩ | ⟨rfl, rfl⟩ | ⟨rfl, rfl⟩ <;> exact ⟨rfl, nofun, nofun⟩
  obtain ⟨heffect, hpor, htck⟩ := own
  exact ⟨fun hmay ht => exec_of_effect (heffect.trans (admitType_head hp hmay ht)) hpor htck,
    fun h => exec_of_effect (heffect.trans (admitType_nothing hp h)) hpor htck⟩

section AdmitHead

variable {d e : Dev} {raw : List Byte} {slot : Nat} {rest : List (List Byte × Nat)}
variable (he : e = d.takeHead raw slot rest) (hflush : e.rings.flushing = false)
include he hflush

theorem Dev.admitHead_unknown (h : knownType (rType raw) = false) :
    d.admitHead raw slot rest = e.turnAway raw cBadType 0 0 := by
  subst he
  simp only [Dev.admitHead, hflush, Bool.false_eq_true, if_false, h, Bool.not_false, if_true]

theorem Dev.admitHead_note (h : rType raw = 0x00) :
    d.admitHead raw slot rest = (e.begin_ (rSeq raw)).close (rSeq raw) { result := (raw.drop 0x0C).take 16 } := by
  have known : knownType 0x00 = true := by decide
  subst he
  simp only [Dev.admitHead, hflush, Bool.false_eq_true, if_false, h, known, Bool.not_true, if_true]

theorem Dev.admitHead_barrier (h : rType raw = 0x70) : d.admitHead raw slot rest = e := by
  have known : knownType 0x70 = true := by decide
  have other : ¬ 0x70 = 0x00 := by decide
  subst he
  simp only [Dev.admitHead, hflush, Bool.false_eq_true, if_false, h, known, Bool.not_true, other, if_true]

variable (hknown : knownType (rType raw) = true) (hnote : rType raw ≠ 0x00) (hbarrier : rType raw ≠ 0x70)
include hknown hnote hbarrier

theorem Dev.admitHead_bad {c : W16} {detail : Nat} (h : e.check raw = .no c detail) :
    d.admitHead raw slot rest = e.turnAway raw c 0 detail := by
  subst he
  simp only [Dev.admitHead, hflush, Bool.false_eq_true, if_false, hknown, Bool.not_true, hnote, hbarrier, h]

/-- A record that passes its checks is refused under a STOP_DEVICE in force, unless it is a ZERO record. -/
theorem Dev.admitHead_stopped {b : Bool} {r : React} (h : e.check raw = .go b) (hzero : rZero raw = false)
    (hr : e.stoppedBy = some r) : d.admitHead raw slot rest = e.turnAway raw r.code r.seq 0 := by
  subst he
  simp only [Dev.admitHead, hflush, Bool.false_eq_true, if_false, hknown, Bool.not_true, hnote, hbarrier, h, hzero, hr]

theorem Dev.admitHead_enrols {b : Bool} (h : e.check raw = .go b) (hfree : rZero raw = true ∨ e.stoppedBy = none) :
    d.admitHead raw slot rest = e.enrol raw b := by
  have none_stops : (if rZero raw = true then none else e.stoppedBy) = none := by
    rcases hfree with hz | hs
    · rw [if_pos hz]
    · rw [hs, ite_self]
  subst he
  simp only [Dev.admitHead, hflush, Bool.false_eq_true, if_false, hknown, Bool.not_true, hnote, hbarrier, h, none_stops]

end AdmitHead

/-- A BARRIER in the queue, a full queue, a sleep request and full status queue each hold admission. -/
theorem Dev.mayAdmit_held {d : Dev} (h : (∃ a ∈ d.rings.admitted, rType a.raw = 0x70) ∨ 256 ≤ d.rings.admitted.length ∨
    d.sys.sleepPin = true ∨ 96 ≤ d.rings.queue.length) : d.mayAdmit = false := by
  rw [Bool.eq_false_iff]
  intro hmay
  simp only [Dev.mayAdmit, Bool.and_eq_true, Bool.not_eq_true', decide_eq_true_eq, List.any_eq_false, beq_iff_eq] at hmay
  obtain ⟨⟨⟨⟨-, hsleep⟩, hadmitted⟩, hqueue⟩, hbarrier⟩ := hmay
  rcases h with ⟨a, ha, ht⟩ | hlen | hpin | hlen
  · exact hbarrier a ha ht
  · omega
  · exact Bool.false_ne_true (hsleep.symm.trans hpin)
  · omega

/-- Settles O27: one lemma per branch of admitting a record, and what holds admission. -/
theorem admissionRules : Obligations.AdmissionRules := by
  refine ⟨fun d e raw slot rest he hflush => ⟨Dev.admitHead_unknown he hflush, Dev.admitHead_note he hflush,
    Dev.admitHead_barrier he hflush, fun hknown hnote hbarrier => ⟨fun c detail => Dev.admitHead_bad he hflush hknown hnote hbarrier,
    fun b hb => ⟨fun r => Dev.admitHead_stopped he hflush hknown hnote hbarrier hb,
      Dev.admitHead_enrols he hflush hknown hnote hbarrier hb⟩⟩⟩, fun d h => ?_⟩
  have held := Dev.mayAdmit_held h
  exact ⟨held, fun p n => Dev.admitAll_held n p held⟩

end Sys2Proof.Machine
end


section
/-! What recording a fault does (R147, R157, R158): its record is open at once, FAULT_N falls from PAUSE up, and its reaction
follows. -/

namespace Sys2Proof.Machine

/-- The parts of the device that recording a fault never reaches: all but the rings, the reactions, the link and the ledger. -/
def Recorded (d e : Dev) : Prop := { e with rings := d.rings, flt := d.flt, link := d.link, age := d.age } = d

theorem Recorded.sys {d e : Dev} (h : Recorded d e) : e.sys = d.sys := by
  have hs := congrArg Dev.sys h
  exact hs

theorem Recorded.clk {d e : Dev} (h : Recorded d e) : e.clk = d.clk := by
  have hs := congrArg Dev.clk h
  exact hs

theorem Recorded.line {d e : Dev} (h : Recorded d e) : e.line = d.line := by
  have hs := congrArg Dev.line h
  exact hs

theorem Recorded.mot {d e : Dev} (h : Recorded d e) : e.mot = d.mot := by
  have hs := congrArg Dev.mot h
  exact hs

theorem Recorded.media {d e : Dev} (h : Recorded d e) : e.media = d.media := by
  have hs := congrArg Dev.media h
  exact hs

/-! ## The record -/

/-- The status record of a fault, its place in the ledger, its frame on the ring and its entry among the open faults (R147). -/
def Dev.record (d : Dev) (r : Rise) (sev : Sev) (lvl : Lvl) (count : Nat) (escalated : Bool) : Dev :=
  let job := r.job.getD (0, 0)
  let made := d.make .fault 0x82 (16 * b2n escalated + 128 * b2n r.job.isSome) r.ports job.2 r.code d.clk.now d.clk.tickNo
    (eventBody sev.code lvl r.port (r.origin.getD d.pos) job.1 (r.related.getD d.earliest) count r.detail)
  let told := (made.2.tally r.code).tellRing r sev lvl (4 * b2n escalated)
  { told with rings := { told.rings with openFaults := told.rings.openFaults ++ [made.1] } }

/-- What follows the record: a repeat prolongs the reaction in force, any other starts one, now or in its turn (R546 to R549). -/
def Dev.respond (d : Dev) (seq : W32) (r : Rise) (sev : Sev) (lvl : Lvl) (escalated : Bool) : Dev :=
  let own (x : React) : Bool := x.code == r.code && x.sub == r.sub
  if d.flt.active.any (fun x => own x && sev.code ≤ x.sev.code) && !escalated then
    let again (x : React) : React := if own x then { x with lastTs := d.clk.now, condHeld := x.condHeld || holds r.code } else x
    { d with flt := { d.flt with active := d.flt.active.map again } }
  else
    let d := if lvl == .stack then { d with link.origin := r.origin.getD d.pos } else d
    let d := if r.code = cTickStalled then d.startWaiting else d
    let later := d.flt.active.any fun x => x.started && sev.code ≤ x.sev.code && x.condHeld
    let waits := d.tickAhead && r.code ≠ cTickStalled && !(d.flt.active.any fun x => x.started && x.sev.code < sev.code)
    let n : React := { seq := seq, code := r.code, sub := r.sub, sev := sev, lvl := lvl, port := r.port, started := !later && !waits,
                       waits := waits, condHeld := holds r.code, condTs := d.clk.now, escalated := escalated, lastTs := d.clk.now }
    let d := { d with flt := { d.flt with active := (d.flt.active.map fun (x : React) => if own x then { x with lastTs := d.clk.now } else x) ++ [n] } }
    if later || waits then d else d.react n

theorem Dev.make_fault_seq (d : Dev) (ty flags mask : Nat) (tag : W32) (code : W16) (ts tick : Ts) (body : List Byte) :
    (d.make .fault ty flags mask tag code ts tick body).1 = d.rings.statusSeq := by
  rcases d.make_cases .fault ty flags mask tag code ts tick body with ⟨hdrop, -⟩ | ⟨hseq, -⟩
  · exact absurd hdrop (by decide)
  · exact hseq

theorem Dev.make_fault_next (d : Dev) (ty flags mask : Nat) (tag : W32) (code : W16) (ts tick : Ts) (body : List Byte) :
    (d.make .fault ty flags mask tag code ts tick body).2.rings.statusSeq = nextStatusSeq d.rings.statusSeq := by
  rcases d.make_cases .fault ty flags mask tag code ts tick body with ⟨hdrop, -⟩ | ⟨-, hseq⟩
  · exact absurd hdrop (by decide)
  · exact hseq

@[simp] theorem Dev.make_openFaults (d : Dev) (k : Keep) (ty flags mask : Nat) (tag : W32) (code : W16) (ts tick : Ts)
    (body : List Byte) : (d.make k ty flags mask tag code ts tick body).2.rings.openFaults = d.rings.openFaults := by
  have h := congrArg Rings.openFaults (d.make_rings k ty flags mask tag code ts tick body)
  exact h

/-- Below HALT a fault is its record, FAULT_N from PAUSE up, and what follows it. -/
theorem Dev.fault_eq {d : Dev} {r : Rise} {sev : Sev} {lvl : Lvl} {count : Nat} {esc : Bool} (h : sev ≠ .halt) :
    d.fault r sev lvl count esc =
      (if 2 ≤ sev.code then (d.record r sev lvl count esc).faultLow else d.record r sev lvl count esc).respond d.rings.statusSeq
        r sev lvl esc := by
  have below : (sev == .halt) = false := beq_false_of_ne h
  simp only [Dev.fault, below, Bool.false_eq_true, if_false, Dev.make_fault_seq, Dev.record]
  rfl

theorem Dev.tellRing_frame (d : Dev) (r : Rise) (sev : Sev) (lvl : Lvl) (flags : Nat) :
    { d.tellRing r sev lvl flags with link := d.link } = d := by
  unfold Dev.tellRing
  split
  · exact d.sendFrame_frame _ _ _ _
  · rfl

theorem Dev.tellRing_rings (d : Dev) (r : Rise) (sev : Sev) (lvl : Lvl) (flags : Nat) :
    (d.tellRing r sev lvl flags).rings = d.rings := by
  have h := congrArg Dev.rings (d.tellRing_frame r sev lvl flags)
  exact h

theorem Dev.tellRing_flt (d : Dev) (r : Rise) (sev : Sev) (lvl : Lvl) (flags : Nat) :
    (d.tellRing r sev lvl flags).flt = d.flt := by
  have h := congrArg Dev.flt (d.tellRing_frame r sev lvl flags)
  exact h

section Record

variable (d : Dev) (r : Rise) (sev : Sev) (lvl : Lvl) (count : Nat) (esc : Bool)

theorem Dev.record_openFaults : (d.record r sev lvl count esc).rings.openFaults = d.rings.openFaults ++ [d.rings.statusSeq] := by
  simp only [Dev.record, Dev.tellRing_rings, Dev.tally, Dev.make_openFaults, Dev.make_fault_seq]

theorem Dev.record_statusSeq : (d.record r sev lvl count esc).rings.statusSeq = nextStatusSeq d.rings.statusSeq := by
  simp only [Dev.record, Dev.tellRing_rings, Dev.tally, Dev.make_fault_next]

/-- A status record reaches the rings and the link's check word alone. -/
theorem Dev.make_flt (k : Keep) (ty flags mask : Nat) (tag : W32) (code : W16) (ts tick : Ts) (body : List Byte) :
    (d.make k ty flags mask tag code ts tick body).2.flt = d.flt := by
  have h := congrArg Dev.flt (d.make_frame k ty flags mask tag code ts tick body)
  exact h

theorem Dev.record_flt : (d.record r sev lvl count esc).flt = d.flt := by
  simp only [Dev.record, Dev.tellRing_flt, Dev.tally, Dev.make_flt]

theorem Dev.record_recorded : Recorded d (d.record r sev lvl count esc) := by
  unfold Dev.record
  extract_lets job made told
  have hmade : { made.2 with rings := d.rings, link := d.link } = d := d.make_frame _ _ _ _ _ _ _ _ _
  have htold : { told with link := made.2.link } = made.2.tally r.code := (made.2.tally r.code).tellRing_frame r sev lvl _
  calc ({ told with rings := d.rings, flt := d.flt, link := d.link, age := d.age } : Dev)
      = { ({ told with link := made.2.link } : Dev) with rings := d.rings, flt := d.flt, link := d.link, age := d.age } := rfl
    _ = { ({ made.2 with rings := d.rings, link := d.link } : Dev) with flt := d.flt, age := d.age } := by rw [htold]; rfl
    _ = d := by rw [hmade]

end Record

/-! ## What follows -/

/-- The device is as it was but for the reactions and where the latest stack-level one began. -/
def Responded (d e : Dev) : Prop := { e with flt := d.flt, link := d.link } = d

theorem Dev.startWaiting_of_none {d : Dev} (h : ∀ x ∈ d.flt.active, x.waits = false) : d.startWaiting = d := by
  have : d.flt.active.filter (·.waits) = [] := List.filter_eq_nil_iff.mpr fun x hx => by rw [h x hx]; exact Bool.false_ne_true
  simp only [Dev.startWaiting, this, List.foldl_nil]

/-- A reaction that itself does nothing at this device leaves it, whether it starts now or in its turn. -/
theorem Dev.respond_of_react {d : Dev} {seq : W32} {r : Rise} {sev : Sev} {lvl : Lvl} {esc : Bool}
    (hwaits : r.code = cTickStalled → ∀ x ∈ d.flt.active, x.waits = false)
    (hreact : ∀ (e : Dev) (n : React), Responded d e → n.sev = sev → n.lvl = lvl → n.code = r.code → e.react n = e) :
    Responded d (d.respond seq r sev lvl esc) := by
  unfold Dev.respond
  extract_lets own again flt link placed started later waits n flt' queued
  split
  · rfl
  · have hplaced : Responded d placed ∧ placed.flt = d.flt := by
      dsimp only [placed]
      split <;> exact ⟨rfl, rfl⟩
    have hstarted : started = placed := by
      dsimp only [started]
      split
      · next hc => exact Dev.startWaiting_of_none (by rw [hplaced.2]; exact hwaits hc)
      · rfl
    have hqueued : Responded d queued := by
      dsimp only [queued]
      rw [hstarted]
      exact hplaced.1
    split
    · exact hqueued
    · rw [hreact queued n hqueued rfl rfl rfl]
      exact hqueued

theorem Responded.rings {d e : Dev} (h : Responded d e) : e.rings = d.rings := by
  have hs := congrArg Dev.rings h
  exact hs

theorem Responded.sys {d e : Dev} (h : Responded d e) : e.sys = d.sys := by
  have hs := congrArg Dev.sys h
  exact hs

theorem Responded.line {d e : Dev} (h : Responded d e) : e.line = d.line := by
  have hs := congrArg Dev.line h
  exact hs

theorem Responded.mot {d e : Dev} (h : Responded d e) : e.mot = d.mot := by
  have hs := congrArg Dev.mot h
  exact hs

theorem Responded.media {d e : Dev} (h : Responded d e) : e.media = d.media := by
  have hs := congrArg Dev.media h
  exact hs

theorem Recorded.trans_responded {d e f : Dev} (h : Recorded d e) (k : Responded e f) : Recorded d f :=
  calc ({ f with rings := d.rings, flt := d.flt, link := d.link, age := d.age } : Dev)
      = { ({ f with flt := e.flt, link := e.link } : Dev) with rings := d.rings, flt := d.flt, link := d.link, age := d.age } := rfl
    _ = d := by rw [show ({ f with flt := e.flt, link := e.link } : Dev) = e from k]; exact h

/-- A PAUSE above port level has nothing to stop where neither a band nor a record is in progress and the media rests. -/
theorem Dev.react_pause_idle {d : Dev} {n : React} (hsev : n.sev = .pause) (hlvl : n.lvl ≠ .port) (hcode : n.code ≠ cMediaYank)
    (hband : d.line.band = none) (hmove : d.media.move = none) (hcut : d.media.cut = none) (hrest : d.mot.travel = .rest) :
    d.react n = d := by
  have mover : d.mover = none := by simp only [Dev.mover, hmove, hcut, Option.map_none]
  have planned : (d.mot.travel == .planned) = false := by rw [hrest]; rfl
  have stopped : d.stopBand n.code n.seq true = d := by simp only [Dev.stopBand, hband]
  have paused : d.pauseMove = d := by simp only [Dev.pauseMove, mover, Option.isNone_none, Bool.true_or, if_true]
  simp only [Dev.react, hsev, beq_false_of_ne hlvl, Bool.false_eq_true, if_false, hcode, Dev.pauseDevice, mover, stopped, paused,
    planned, Bool.false_and]

theorem Dev.react_derate (d : Dev) {n : React} (h : n.sev = .derate) : d.react n = d := by
  simp only [Dev.react, h]

theorem Dev.faultLow_faultN (d : Dev) : d.faultLow.sys.faultN = false := by
  unfold Dev.faultLow
  split
  · rfl
  · next h => exact (Bool.not_eq_true _).mp h

theorem Dev.faultLow_since {d : Dev} (h : d.sys.faultN = true) : d.faultLow.sys.faultNTs = d.clk.now := by
  rw [Dev.faultLow, if_pos h]

theorem Dev.faultLow_frame (d : Dev) : { d.faultLow with sys := d.sys } = d := by
  unfold Dev.faultLow
  split <;> rfl

/-- Settles O57: the record, FAULT_N, and a reaction that has nothing to do. -/
theorem recordedFaultsAreOpen : Obligations.RecordedFaultsAreOpen := by
  intro d r lvl count esc hwaits
  refine ⟨?derate, fun hcode hlvl hband hmove hcut hrest => ?pause⟩
  case derate =>
    obtain ⟨e, he⟩ : ∃ e, e = d.record r .derate lvl count esc := ⟨_, rfl⟩
    have hrec : Recorded d e := he ▸ d.record_recorded r .derate lvl count esc
    have hflt : e.flt = d.flt := he ▸ d.record_flt r .derate lvl count esc
    have hresp : Responded e (e.respond d.rings.statusSeq r .derate lvl esc) :=
      Dev.respond_of_react (by rw [hflt]; exact hwaits) fun f n _ hsev _ _ => f.react_derate hsev
    have heq : d.fault r .derate lvl count esc = e.respond d.rings.statusSeq r .derate lvl esc := by
      rw [Dev.fault_eq (by decide), if_neg (by decide), he]
    rw [heq]
    refine ⟨?_, ?_, hrec.trans_responded hresp⟩
    · rw [hresp.rings, he, Dev.record_openFaults]
    · rw [hresp.rings, he, Dev.record_statusSeq]
  case pause =>
    obtain ⟨e, he⟩ : ∃ e, e = d.record r .pause lvl count esc := ⟨_, rfl⟩
    have hrec : Recorded d e := he ▸ d.record_recorded r .pause lvl count esc
    have hflt : e.flt = d.flt := he ▸ d.record_flt r .pause lvl count esc
    have hlow := e.faultLow_frame
    have hresp : Responded e.faultLow (e.faultLow.respond d.rings.statusSeq r .pause lvl esc) := by
      refine Dev.respond_of_react (by simp only [Dev.faultLow_flt, hflt]; exact hwaits) fun f n hf hsev hl hc =>
        Dev.react_pause_idle hsev (fun h => hlvl (hl.symm.trans h)) (fun h => hcode (hc.symm.trans h)) ?_ ?_ ?_ ?_
      · rw [hf.line, Dev.faultLow_line, hrec.line, hband]
      · rw [hf.media, Dev.faultLow_media, hrec.media, hmove]
      · rw [hf.media, Dev.faultLow_media, hrec.media, hcut]
      · rw [hf.mot, Dev.faultLow_mot, hrec.mot, hrest]
    have heq : d.fault r .pause lvl count esc = e.faultLow.respond d.rings.statusSeq r .pause lvl esc := by
      rw [Dev.fault_eq (by decide), if_pos (by decide), he]
    rw [heq]
    refine ⟨?_, ?_, fun hhigh => ?_, ?_⟩
    · rw [hresp.rings, Dev.faultLow_rings, he, Dev.record_openFaults]
    · rw [hresp.sys, Dev.faultLow_faultN]
    · rw [hresp.sys, Dev.faultLow_since (hrec.sys ▸ hhigh), hrec.clk]
    · calc ({ e.faultLow.respond d.rings.statusSeq r .pause lvl esc with
            rings := d.rings, flt := d.flt, link := d.link, age := d.age, sys := d.sys } : Dev)
          = { ({ e.faultLow.respond d.rings.statusSeq r .pause lvl esc with flt := e.faultLow.flt, link := e.faultLow.link } : Dev) with
              rings := d.rings, flt := d.flt, link := d.link, age := d.age, sys := d.sys } := rfl
        _ = { ({ e.faultLow with sys := e.sys } : Dev) with
              rings := d.rings, flt := d.flt, link := d.link, age := d.age, sys := d.sys } := by rw [hresp]
        _ = { ({ e with rings := d.rings, flt := d.flt, link := d.link, age := d.age } : Dev) with sys := d.sys } := by
              rw [e.faultLow_frame]
        _ = d := by rw [hrec]

end Sys2Proof.Machine
end


section
/-! The hard resets, the host port, the secondary of a pair, the bank detector and the test port. -/

namespace Sys2Proof.Machine

/-! ## The hard resets (R517, R534) -/

/-- At reset values every half-bridge is at the level that its axis asks for. -/
theorem Dev.hardReset_bridges (d : Dev) (kind : ResetKind) (up : Bool) :
    ({ d.hardReset kind with link.aligned := up } : Dev).settleBridges = { d.hardReset kind with link.aligned := up } := by
  refine Dev.settleBridges_of_follow _ fun x b => ?_
  cases b <;> match x with | 0 | 1 | 2 | 3 => rfl

/-- After a hard reset nothing is to be settled but the link, whose clock stands. -/
theorem Dev.hardReset_finish (d : Dev) (kind : ResetKind) :
    (d.hardReset kind).finish = { d.hardReset kind with link.aligned := false } := by
  have stopped : (d.hardReset kind).finish = ({ d.hardReset kind with link.aligned := false } : Dev).finish := by
    cases h : (d.hardReset kind).link.aligned with
    | false =>
      refine congrArg Dev.finish (?_ : d.hardReset kind = { d.hardReset kind with link.aligned := false })
      rw [← h]
    | true =>
      have clock : (d.hardReset kind).clk.linkRun = false := rfl
      simp only [Dev.finish, h, clock, Bool.not_true, Bool.or_self, Bool.false_eq_true, if_false, Bool.not_false, Bool.or_true,
        if_true]
  rw [stopped, Dev.finish_early _ rfl (.inr rfl), d.hardReset_bridges, Dev.faultRelease_high _ rfl]

/-- Settles O11: each hard reset is one and the same device, and its end stops the link. -/
theorem hardResetsAnswer : Obligations.HardResetsAnswer := by
  intro s
  constructor
  · have h : (effect .powerOnReset s.dev).finish = { s.dev.hardReset .powerOn with link.aligned := false } :=
      s.dev.hardReset_finish .powerOn
    rw [exec_powerOnReset, h]
    rfl
  · have h : (effect .resetN s.dev).finish = { s.dev.hardReset .resetN with link.aligned := false } :=
      s.dev.hardReset_finish .resetN
    rw [exec_effect .resetN nofun nofun, h]
    rfl

/-! ## The host port (R83 to R95) -/

section Port

variable {d : Dev} {ca : BitVec 48}

/-- A read leaves nothing on the data lines of before. -/
theorem hostReads_silent {caDone : Bool} {words : Nat} {e : Dev} (he : e = { d with port := { d.port with dq := none } })
    (h : caDone = false ∨ e.answering = .none ∨ e.caMine ca = false) : hostReads ca caDone words d = e := by
  subst he
  refine if_pos ?_
  rcases h with h | h | h
  · rw [h]; rfl
  · rw [h, beq_self_eq_true, Bool.or_true, Bool.true_or]
  · rw [h, Bool.not_false, Bool.or_true]

/-- The transaction is whole, the device's, and answered. -/
theorem Dev.answers {e : Dev} {a : Answering} (ha : e.answering = a) (hnone : a ≠ .none) (hmine : e.caMine ca = true) :
    ¬ (!true || e.answering == .none || !e.caMine ca) = true := by
  rw [ha, hmine, beq_false_of_ne hnone]
  exact Bool.false_ne_true

theorem Dev.slice_not_identity {e : Dev} (ha : e.answering = .slice) : ¬ (e.answering == .identity) = true := by
  rw [ha]
  exact Bool.false_ne_true

theorem hostReads_undecoded {words : Nat} {e : Dev} (he : e = { d with port := { d.port with dq := none } })
    (ha : e.answering = .slice) (hmine : e.caMine ca = true) (hdec : caDecoded ca = false) :
    hostReads ca true words d = e.undecoded ca := by
  subst he
  exact (if_neg (Dev.answers ha (by decide) hmine)).trans
    ((if_neg (Dev.slice_not_identity ha)).trans (if_pos (by rw [hdec, Bool.not_false])))

theorem hostReads_slice {words : Nat} {e f : Dev} {offs served : List Nat}
    (he : e = { d with port := { d.port with dq := none } }) (ha : e.answering = .slice) (hmine : e.caMine ca = true)
    (hdec : caDecoded ca = true) (hoffs : offs = (List.range (2 * words)).map (caByte ca))
    (hserved : served = offs.takeWhile (· < 0x400000))
    (hf : f = { e with port := { e.port with
      readCount := e.port.readCount + 1, dq := if e.link.driving then some (served.map e.winByte) else none } }) :
    hostReads ca true words d = if served.length < offs.length || served.any inReserved then f.undecoded ca else f := by
  subst he hf hserved hoffs
  exact (if_neg (Dev.answers ha (by decide) hmine)).trans
    ((if_neg (Dev.slice_not_identity ha)).trans (if_neg (by rw [hdec]; exact Bool.false_ne_true)))

theorem hostReads_identity {words : Nat} {e : Dev} {offs : List Nat} (he : e = { d with port := { d.port with dq := none } })
    (ha : e.answering = .identity) (hmine : e.caMine ca = true) (hdec : caDecoded ca = true)
    (hoffs : offs = ((List.range (2 * words)).map (caByte ca)).takeWhile (· < 0x200)) (hne : offs ≠ []) :
    hostReads ca true words d = { e with port := { e.port with
      readCount := e.port.readCount + 1, dq := if e.link.driving then some (offs.map e.winByte) else none } } := by
  have some_ : offs.isEmpty = false := by rw [List.isEmpty_eq_false_iff]; exact hne
  subst he hoffs
  exact (if_neg (Dev.answers ha (by decide) hmine)).trans
    ((if_pos (by rw [ha]; rfl)).trans (if_neg (by rw [some_, hdec]; exact Bool.false_ne_true)))

theorem hostWrites_ignored {caDone : Bool} {data : List (Byte × Bool)}
    (h : caDone = false ∨ d.answering ≠ .slice ∨ d.caMine ca = false) : hostWrites ca caDone data d = d := by
  refine if_pos ?_
  rcases h with h | h | h
  · rw [h]; rfl
  · have hne : (d.answering != .slice) = true := bne_iff_ne.mpr h
    rw [hne, Bool.or_true, Bool.true_or]
  · rw [h, Bool.not_false, Bool.or_true]

/-- The transaction is whole, the device's, and one of the slice. -/
theorem Dev.takesWrite (ha : d.answering = .slice) (hmine : d.caMine ca = true) :
    ¬ (!true || d.answering != .slice || !d.caMine ca) = true := by
  rw [ha, hmine]
  exact Bool.false_ne_true

theorem hostWrites_undecoded {data : List (Byte × Bool)} (ha : d.answering = .slice) (hmine : d.caMine ca = true)
    (hdec : caDecoded ca = false) : hostWrites ca true data d = d.undecoded ca := by
  exact (if_neg (Dev.takesWrite ha hmine)).trans (if_pos (by rw [hdec, Bool.not_false]))

theorem hostWrites_early {data : List (Byte × Bool)} (ha : d.answering = .slice) (hmine : d.caMine ca = true)
    (hdec : caDecoded ca = true) (hready : d.sys.ready = false) {e : Dev}
    (he : e = { d with port := { d.port with prewrite := d.port.prewrite + 1, writeCount := d.port.writeCount + 1 } }) :
    hostWrites ca true data d = if (burstCells ca data).any (fun c => hostIgnored c.1) then e.undecoded ca else e := by
  subst he
  unfold hostWrites
  rw [if_neg (Dev.takesWrite ha hmine), if_neg (by rw [hdec]; exact Bool.false_ne_true)]
  simp only [hready, Bool.not_false, if_true]

theorem hostWrites_bus {data : List (Byte × Bool)} (ha : d.answering = .slice) (hmine : d.caMine ca = true)
    (hdec : caDecoded ca = true) (hready : d.sys.ready = true) (hdrives : d.link.driving = true ∨ d.link.formed = true) {e : Dev}
    (he : e = d.busWrite (burstCells ca data)) :
    hostWrites ca true data d = if (burstCells ca data).any (fun c => hostIgnored c.1) then e.undecoded ca else e := by
  have heard : (!d.link.driving && !d.link.formed && d.link.takeover.isNone) = false := by
    rcases hdrives with h | h
    · rw [h, Bool.not_true, Bool.false_and, Bool.false_and]
    · rw [h, Bool.not_true, Bool.and_false, Bool.false_and]
  subst he
  unfold hostWrites
  rw [if_neg (Dev.takesWrite ha hmine), if_neg (by rw [hdec]; exact Bool.false_ne_true)]
  simp only [hready, Bool.not_true, heard, Bool.false_eq_true, if_false]

end Port

/-- Settles O20: one lemma per answer of the port; the direction is that of the command-address. -/
theorem hostTransactionsAnswer : Obligations.HostTransactionsAnswer := by
  constructor
  · intro s ca words e he
    refine ⟨fun hwrite caDone => ?_, fun hread => ?_⟩
    · have same : effect (.xspiRead ca caDone words) s.dev = effect (.xspiWrite ca caDone []) s.dev := by
        change xspiRead ca caDone words s.dev = xspiWrite ca caDone [] s.dev
        simp only [xspiRead, xspiWrite, hwrite, Bool.false_eq_true, if_false]
      rw [exec_of_effect same, exec_effect (.xspiWrite ca caDone []) nofun nofun]
    · have reads (caDone : Bool) : effect (.xspiRead ca caDone words) s.dev = hostReads ca caDone words s.dev := if_pos hread
      refine ⟨fun caDone h => ?_, fun ha hmine => ⟨fun hdec => ?_, fun hdec offs served f hoffs hserved hf => ?_⟩,
        fun ha hmine hdec offs hoffs hne => ?_⟩
      · exact exec_of_effect ((reads caDone).trans (hostReads_silent he h))
      · exact exec_of_effect ((reads true).trans (hostReads_undecoded he ha hmine hdec))
      · exact exec_of_effect ((reads true).trans (hostReads_slice he ha hmine hdec hoffs hserved hf))
      · exact exec_of_effect ((reads true).trans (hostReads_identity he ha hmine hdec hoffs hne))
  · intro s ca data
    refine ⟨fun hread caDone => ?_, fun hwrite => ?_⟩
    · have same : effect (.xspiWrite ca caDone data) s.dev = effect (.xspiRead ca caDone (data.length / 2)) s.dev := by
        change xspiWrite ca caDone data s.dev = xspiRead ca caDone (data.length / 2) s.dev
        simp only [xspiRead, xspiWrite, hread, if_true]
      rw [exec_of_effect same, exec_effect (.xspiRead ca caDone (data.length / 2)) nofun nofun]
    · have writes (caDone : Bool) : effect (.xspiWrite ca caDone data) s.dev = hostWrites ca caDone data s.dev :=
        if_neg (by rw [hwrite]; exact Bool.false_ne_true)
      refine ⟨fun caDone h => ?_, fun ha hmine => ⟨fun hdec => ?_, fun hdec e h => ?_⟩⟩
      · exact exec_of_effect ((writes caDone).trans (hostWrites_ignored h))
      · exact exec_of_effect ((writes true).trans (hostWrites_undecoded ha hmine hdec))
      · rcases h with ⟨hready, he⟩ | ⟨hready, hdrives, he⟩
        · exact exec_of_effect ((writes true).trans (hostWrites_early ha hmine hdec hready he))
        · exact exec_of_effect ((writes true).trans (hostWrites_bus ha hmine hdec hready hdrives he))

/-! ## The secondary of a pair (R590, R595 to R597) -/

/-- A cut line is noted with the line alone. -/
theorem Dev.damage_frame (d : Dev) (ps : List (Fin 4)) (code : W16) (ref : W32) : { d.damage ps code ref with line := d.line } = d := by
  unfold Dev.damage
  split
  · dsimp only
    split <;> rfl
  · rfl

/-- Settles O56: the queue's next write, and the takeover after a release or a silence. -/
theorem secondaryAnswers : Obligations.SecondaryAnswers := by
  intro s hsec
  refine ⟨fun w hop hw => ?write, fun halive => ⟨fun hrel hpast => ?dissolve, fun hgone => ?drive⟩⟩
  case write =>
    refine exec_of_effect (?_ : twinWriteApply s.dev = _)
    simp only [twinWriteApply, hop, hsec, Bool.not_true, Bool.or_self, Bool.false_eq_true, if_false, hw]
  case dissolve =>
    refine exec_of_effect (?_ : takeover s.dev = _)
    simp only [takeover, halive, hsec, hrel, hpast, Bool.not_true, Bool.or_self, Bool.false_eq_true, if_false, Option.isNone_none,
      Bool.not_false, Bool.and_self, if_true]
  case drive =>
    have gone : (s.dev.link.released.isNone && !s.dev.past s.dev.link.lastFrameTs 300) = false := by
      rcases hgone with h | h
      · rw [Option.isNone_eq_false_iff.mpr (Option.isSome_iff_ne_none.mpr h), Bool.false_and]
      · rw [h, Bool.not_true, Bool.and_false]
    refine ⟨takeover s.dev, exec_of_effect rfl, ?_⟩
    unfold takeover
    rw [halive, hsec, gone]
    extract_lets base det cut l
    have frame := base.damage_frame fin4 0 0
    have hport : cut.port = base.port := by
      have h := congrArg Dev.port frame
      exact h
    have hwin : cut.win = base.win := by
      have h := congrArg Dev.win frame
      exact h
    refine ⟨rfl, rfl, rfl, rfl, rfl, hport, ?_⟩
    change cut.win.mem = _
    rw [hwin]

/-! ## The bank detector and the test port (R619) -/

/-- Five edges with TMS high reach test-logic reset from every state of the controller. -/
theorem TapState.next_high_five (t : TapState) :
    ((((t.next true).next true).next true).next true).next true = .reset := by
  cases t <;> rfl

theorem Tap.rise_state (t : Tap) (tms tdi : Bool) (cells : List Bool) (u : BitVec 2) :
    (t.rise tms tdi cells u).state = t.state.next tms := by
  unfold Tap.rise
  split
  · rfl
  · rfl
  · split <;> rfl
  · split <;> rfl
  · rfl

/-- The falling edge in test-logic reset selects BYPASS, which takes nothing over. -/
theorem Tap.fall_reset {t : Tap} (h : t.state = .reset) : t.fall.ir = 0b1111 ∧ t.fall.takeover = none := by
  have hf : t.fall = { t with ir := 0b1111, tdo := none } := by simp only [Tap.fall, h]
  rw [hf]
  exact ⟨rfl, rfl⟩

theorem tckEdge_rise {s : State} {tms tdi : Bool} {cells : List Bool} (h : s.tap.state ≠ .captureIr) :
    tckEdge true tms tdi true cells s = { s with tap := s.tap.rise tms tdi cells 0 } := by
  simp only [tckEdge, Bool.not_true, Bool.false_eq_true, if_false, beq_false_of_ne h]

theorem tckEdge_capture {s : State} {tms tdi : Bool} {cells : List Bool} (h : s.tap.state = .captureIr) :
    tckEdge true tms tdi true cells s = { s with
      dev := { s.dev with sys := { s.dev.sys with frees := s.dev.sys.frees + 1 } }
      tap := s.tap.rise tms tdi cells (BitVec.ofNat 2 (Config.freeNat s.dev.sys.frees)) } := by
  simp only [tckEdge, Bool.not_true, Bool.false_eq_true, if_false, h, beq_self_eq_true, if_true]
  rfl

/-- Settles O59: an edge's four forms, and the controller's way to test-logic reset. -/
theorem testPortAnswers : Obligations.TestPortAnswers := by
  refine ⟨fun s => ⟨fun above => exec_of_effect rfl, fun rising tms tdi cells => ⟨rfl, rfl, fun h => ?_, fun h => ?_⟩⟩, ?_⟩
  · rw [exec_tckEdge, tckEdge_rise h]
  · rw [exec_tckEdge, tckEdge_capture h]
  · intro t tdi cells u r hr
    have hreset : r.state = .reset := by
      rw [hr]
      simp only [Tap.rise_state]
      exact t.state.next_high_five
    exact ⟨hreset, Tap.fall_reset hreset⟩

end Sys2Proof.Machine
end


section
/-! The link: frames that come, and what the ring can lack (16). -/

namespace Sys2Proof.Machine

/-! ## Frames (R568, R569) -/

theorem Dev.linkLive_of {d : Dev} (hring : d.onRing = true) (hclk : d.clk.clkinOk = true) (hrun : d.clk.linkRun = true)
    (hpers : d.persError = false) : d.linkLive = true := by
  simp only [Dev.linkLive, hring, hclk, hrun, hpers, Bool.not_false, Bool.and_self]

section Frame

variable {d : Dev} {ty : Nat} {f : LinkFrame} {act : List Byte → Dev → Dev}
variable (hlive : d.linkLive = true) (haligned : d.link.aligned = true) (hty : le f.bytes 0 1 = ty)
include hlive haligned hty

/-- The frame is of the command's type, at a chip on an aligned ring. -/
theorem Dev.frame_taken : ¬ (!d.linkLive || !d.link.aligned || decide (le f.bytes 0 1 ≠ ty)) = true := by
  rw [hlive, haligned, decide_eq_false (not_not_intro hty)]
  exact Bool.false_ne_true

theorem Dev.linkIn_own (hsrc : le f.bytes 1 1 = d.node) :
    d.linkIn ty f act = if f.intact && frameGood f.bytes then
      { d with link := { d.link with flights := d.link.flights.filter fun x => x.bytes.getD 3 0 ≠ f.bytes.getD 3 0 } } else d :=
  (if_neg (d.frame_taken hlive haligned hty)).trans (if_pos hsrc)

variable {good mine seen : Bool} {e : Dev} (hgood : good = (f.intact && frameGood f.bytes))
variable (hmine : mine = decide (le f.bytes 2 1 = d.node ∨ le f.bytes 2 1 = 0xFF))
variable (hseen : seen = d.link.seen.contains (f.bytes.getD 1 0, f.bytes.getD 3 0))
variable (he : e = { d with link := { d.link with
  forwarded := (if d.link.fwdTs = d.clk.now then d.link.forwarded else []) ++ [(f.bytes, good)], fwdTs := d.clk.now } })
variable (hsrc : le f.bytes 1 1 ≠ d.node)
include hgood hmine hseen he hsrc

/-- A frame of another chip is forwarded, and acts when it is intact, addressed to this chip and new. -/
theorem Dev.linkIn_other :
    d.linkIn ty f act = if !good || !mine || seen then e
      else act f.bytes { e with link := { e.link.accept (f.bytes.getD 1 0) (f.bytes.getD 3 0) with
        lastFrameTs := if e.fromPartner f.bytes then e.clk.now else e.link.lastFrameTs } } := by
  subst hgood hmine hseen he
  refine ((if_neg (d.frame_taken hlive haligned hty)).trans (if_neg hsrc)).trans ?_
  rw [Bool.decide_or]
  rfl

end Frame

/-- The seven frames of the link, with their types and what each does once it is accepted. -/
def linkFrames (f : LinkFrame) : List (Instr × Nat × (List Byte → Dev → Dev)) :=
  [(Instr.tickFrame f, 0x20, Dev.tickIn), (.planFrame f, 0x21, Dev.planIn), (.eventFrame f, 0x30, Dev.eventIn),
    (.echoFrame f, 0x22, Dev.echoIn), (.writeFrame f, 0x40, Dev.writeIn), (.syncFrame f, 0x10, Dev.syncIn), (.cellarFrame f, 0x50, Dev.cellarIn)]

theorem linkFrame_effect {f : LinkFrame} {c : Instr} {ty : Nat} {act : List Byte → Dev → Dev} (hc : (c, ty, act) ∈ linkFrames f) (d : Dev) :
    effect c d = d.linkIn ty f act ∧ c ≠ .powerOnReset ∧ ∀ r m i n l, c ≠ .testPortTckEdge r m i n l := by
  simp only [linkFrames, List.mem_cons, List.not_mem_nil, or_false, Prod.mk.injEq] at hc
  rcases hc with ⟨rfl, rfl, rfl⟩ | ⟨rfl, rfl, rfl⟩ | ⟨rfl, rfl, rfl⟩ | ⟨rfl, rfl, rfl⟩ | ⟨rfl, rfl, rfl⟩ | ⟨rfl, rfl, rfl⟩ |
    ⟨rfl, rfl, rfl⟩ <;> exact ⟨rfl, nofun, nofun⟩

/-- Settles O54: the seven frames take one way in, each with what its type does. -/
theorem linkFramesAnswer : Obligations.LinkFramesAnswer := by
  intro s f c ty act good mine seen e hc hring hclk hrun hpers haligned hty hgood hmine hseen he
  have hlive := Dev.linkLive_of hring hclk hrun hpers
  obtain ⟨heffect, hpor, htck⟩ := linkFrame_effect hc s.dev
  refine ⟨fun hsrc => ?own, fun hsrc => ?other⟩
  case own =>
    have h := Dev.linkIn_own (act := act) hlive haligned hty hsrc
    rw [← hgood] at h
    refine ⟨fun hg => ?_, fun hg => ?_⟩
    · rw [hg, if_pos rfl] at h
      exact exec_of_effect (heffect.trans h) hpor htck
    · rw [hg, if_neg Bool.false_ne_true] at h
      exact exec_of_effect (heffect.trans h) hpor htck
  case other =>
    have h := Dev.linkIn_other (act := act) hlive haligned hty hgood hmine hseen he hsrc
    refine ⟨fun hno => ?_, fun hg hm hs => ?_⟩
    · have no : (!good || !mine || seen) = true := by
        rcases hno with hg | hm | hs
        · rw [hg]; rfl
        · rw [hm, Bool.not_false, Bool.or_true, Bool.true_or]
        · rw [hs, Bool.or_true]
      rw [no, if_pos rfl] at h
      exact exec_of_effect (heffect.trans h) hpor htck
    · have yes : (!good || !mine || seen) = false := by rw [hg, hm, hs]; rfl
      rw [yes, if_neg Bool.false_ne_true] at h
      exact exec_of_effect (heffect.trans h) hpor htck

/-! ## Alignment and delivery -/

section Ring

variable {d : Dev}

theorem linkAligned_eq (hlive : d.linkLive = true) (h : d.link.aligned = false) :
    linkAligned d = { d with link := { d.link with aligned := true, alignTs := d.clk.now } } :=
  if_neg (by rw [hlive, h]; exact Bool.false_ne_true)

theorem syncSend_eq (hlive : d.linkLive = true) (h : d.mayMark = false) : syncSend d = (d.sendSync none).drainUnits := by
  simp only [syncSend, hlive, h, Bool.not_true, Bool.false_eq_true, if_false]

theorem mem_insertFrame (b : List Byte) : ∀ l, b ∈ insertFrame b l
  | [] => List.mem_singleton.mpr rfl
  | x :: xs => by
    rw [insertFrame]
    split
    · exact List.mem_cons_self
    · exact List.mem_cons_of_mem _ (mem_insertFrame b xs)

/-- The oldest frame not yet delivered goes out again when its time has come. -/
theorem linkResend_eq {f g : Flight} {rest : List Flight} (hlive : d.linkLive = true) (hf : d.link.flights = f :: rest)
    (htries : f.tries < 3) (hlate : d.frameLate f.bytes = false) (hpast : d.past f.ts (ceilDiv (d.tRing + 40) 4) = true)
    (hnew : f ∉ rest) (hg : g = { bytes := withAttempt f.bytes (f.tries + 1), tries := f.tries + 1, ts := d.clk.now }) :
    linkResend d = { d with link := { d.link with
      flights := g :: rest, resends := d.link.resends + 1
      sent := insertFrame g.bytes (if d.link.sentTs = d.clk.now then d.link.sent else []), sentTs := d.clk.now } } := by
  have due : d.resendDue f = true := by
    simp only [Dev.resendDue, htries, decide_true, hlate, Bool.not_false, hpast, Bool.and_self]
  have others : (rest.map fun x => if x = f then g else x) = rest := by
    refine (List.map_congr_left fun x hx => if_neg ?_).trans (List.map_id' rest)
    rintro rfl
    exact hnew hx
  subst hg
  simp only [linkResend, hf, List.find?_cons_of_pos due, hlive, Bool.not_true, Bool.false_eq_true, if_false, List.map_cons, if_true,
    others]

/-- Alignment lost at a chip of a ring. -/
theorem linkDown_lost {e : Dev} (hlive : d.linkLive = true) (haligned : d.link.aligned = true) (halive : d.alive = true)
    (hmode : d.mode ≠ 0) (hformed : d.link.formed = false)
    (he : e = { d with link := { d.link with
      aligned := false, alignTs := d.clk.now, downHeld := true, nodes := d.link.awaitNodes } }) :
    linkDown true d = e.raise { code := cLinkDown, sev := some .pause, lvl := e.linkLvl, job := e.bandJob
                                detail := twinDetail 1 0xFF 0 e.nextLineTick 0 0 0 } := by
  have taken : ¬ (!d.linkLive || !(if true = true then d.link.aligned else d.link.flights.any fun f => d.frameLate f.bytes)) = true := by
    rw [hlive, if_pos rfl, haligned]
    exact Bool.false_ne_true
  have raised : ¬ (!d.alive) = true := by rw [halive]; exact Bool.false_ne_true
  subst he
  refine (if_neg taken).trans ((if_neg raised).trans ((if_neg (by rw [hformed]; exact Bool.false_ne_true)).trans
    ((if_neg hmode).trans ?_)))
  have held : decide (d.mode ≠ 0) = true := decide_eq_true hmode
  have notAligned : (d.link.aligned && !true) = false := by rw [Bool.not_true, Bool.and_false]
  change Dev.raise { d with link := { d.link with
      aligned := d.link.aligned && !true, alignTs := d.clk.now, downHeld := decide (d.mode ≠ 0), nodes := d.link.awaitNodes } } _ = _
  rw [held, notAligned]
  rfl

theorem linkUp_eq (halive : d.alive = true) (haligned : d.link.aligned = true) (hdown : d.link.downHeld = true)
    (hjoined : d.link.joined = true) (hpast : d.past d.link.alignTs (10 * ms) = true)
    (hready : 2 ≤ d.mode → ∀ n ∈ d.link.nodes, n.2.state = 3)
    (hmaster : d.mode = 1 → d.pos ≠ 0 → ∃ n ∈ d.link.nodes, n.1 / 2 = 0 ∧ n.2.state ≠ unheard) :
    linkUp d = Dev.endCond { d with link := { d.link with downHeld := false } } cLinkDown 0 := by
  have wide : (2 ≤ d.mode && !(d.link.nodes.all fun n => n.2.state == 3)) = false := by
    by_cases hm : 2 ≤ d.mode
    · have all : (d.link.nodes.all fun n => n.2.state == 3) = true :=
        List.all_eq_true.mpr fun n hn => beq_iff_eq.mpr (hready hm n hn)
      rw [all, Bool.not_true, Bool.and_false]
    · rw [decide_eq_false hm, Bool.false_and]
  have lanes : (d.mode = 1 && d.pos ≠ 0 && !(d.link.nodes.any fun n => n.1 / 2 == 0 && n.2.state ≠ unheard)) = false := by
    by_cases hm : d.mode = 1 ∧ d.pos ≠ 0
    · obtain ⟨n, hn, hzero, hheard⟩ := hmaster hm.1 hm.2
      have any : (d.link.nodes.any fun n => n.1 / 2 == 0 && n.2.state ≠ unheard) = true :=
        List.any_eq_true.mpr ⟨n, hn, by rw [hzero, decide_eq_true hheard]; rfl⟩
      rw [any, Bool.not_true, Bool.and_false]
    · rw [← Bool.decide_and, decide_eq_false hm, Bool.false_and]
  refine if_neg ?_
  rw [halive, haligned, hdown, hjoined, hpast, wide, lanes]
  exact Bool.false_ne_true

/-! ## What the ring can lack -/

theorem notJoined_eq {e : Dev} (hmode : 2 ≤ d.mode) (hpos : d.pos ≠ 0) (hvalid : d.pers.valid = true) (hpers : d.persError = false)
    (hclk : d.clk.clkinOk = true) (hjoined : d.link.joined = true)
    (he : e = { d with link := { d.link with joined := false } }) :
    notJoined d = e.raise { code := cLinkDown, sev := some .pause, lvl := e.linkLvl, detail := twinDetail 3 e.node 0 noTick 0 0 0 } := by
  subst he
  refine if_neg ?_
  rw [decide_eq_false (Nat.not_lt.mpr hmode), decide_eq_false hpos, hvalid, hpers, hclk, hjoined]
  exact Bool.false_ne_true

/-- A position counts as lost at the master whatever it is, at the others only the master that has been silent. -/
theorem positionLost_eq {p : BitVec 2} {e : Dev} (halive : d.alive = true) (hmode : d.mode ≠ 0) (haligned : d.link.aligned = true)
    (hdown : d.link.downHeld = false)
    (hp : (d.pos = 0 ∧ p ≠ 0) ∨ (d.pos ≠ 0 ∧ p = 0 ∧
      ((∃ b, d.line.band = some b ∧ b.phase = .firing ∧ d.past d.link.tickHeard (3 * d.line.period) = true) ∨
        (d.line.band = none ∧ d.past d.link.tickHeard ms = true))))
    (hlost : d.link.lostPos.getLsbD p.toNat = false)
    (he : e = { d with link := { d.link with lostPos := d.link.lostPos ||| BitVec.ofNat 4 (2 ^ p.toNat) } }) :
    positionLost p d = e.raise { code := cPositionLost, sev := some .pause, lvl := e.linkLvl, job := e.bandJob
                                 detail := twinDetail 0 (2 * p.toNat) 0 e.nextLineTick 0 0 0 } := by
  have judged : ¬ (!d.alive || d.mode = 0 || (d.pos = 0) = (p.toNat = 0) || (p.toNat = 0 && !d.masterSilent)) = true := by
    rw [halive, decide_eq_false hmode]
    rcases hp with ⟨hpos, hne⟩ | ⟨hpos, rfl, hsilent⟩
    · have hp0 : p.toNat ≠ 0 := fun h => hne (BitVec.eq_of_toNat_eq h)
      simp [hpos, hp0]
    · have silent : d.masterSilent = true := by
        rcases hsilent with ⟨b, hb, hphase, hpast⟩ | ⟨hb, hpast⟩
        · simp [Dev.masterSilent, hb, hphase, hpast]
        · simp [Dev.masterSilent, hb, hpast]
      simp [hpos, silent]
  have here : ¬ (!d.link.aligned || d.link.downHeld || d.link.lostPos.getLsbD p.toNat) = true := by
    rw [haligned, hdown, hlost]
    exact Bool.false_ne_true
  subst he
  exact (if_neg judged).trans (if_neg here)

/-- The skew that is reported: that of three ticks in a row, else a stray pulse's, else a free value for a pulse that is missing. -/
theorem tickSkew_eq {k : Int} {b e : Dev} (halive : d.alive = true)
    (h : (3 ≤ d.link.skewRun ∧ k = d.link.skew ∧ b = d) ∨ (d.link.skewRun < 3 ∧ d.link.stray = some k ∧ b = d) ∨
      (d.link.skewRun < 3 ∧ d.link.stray = none ∧ d.pulseMissing = true ∧ k = (d.drawFree.1 : Int) ∧ b = d.drawFree.2))
    (he : e = { b with link := { b.link with skewRun := 0, stray := none } }) :
    tickSkew d = e.raise { code := cTickSkew, sev := some .pause, lvl := e.linkLvl, job := e.bandJob
                           detail := twinDetail 0 e.node 0 e.nextLineTick 0 0 (k % 4294967296).toNat } := by
  have seen : d.skewSeen = (some k, b) := by
    unfold Dev.skewSeen
    rcases h with ⟨hrun, rfl, rfl⟩ | ⟨hrun, hstray, rfl⟩ | ⟨hrun, hstray, hmissing, rfl, rfl⟩
    · rw [if_pos hrun]
    · rw [if_neg (Nat.not_le.mpr hrun), hstray]
    · rw [if_neg (Nat.not_le.mpr hrun), hstray, hmissing]
      rfl
  subst he
  simp only [tickSkew, halive, Bool.not_true, Bool.false_eq_true, if_false, seen]

theorem tickSkew_none (hrun : d.link.skewRun < 3) (hstray : d.link.stray = none) (hmissing : d.pulseMissing = false) :
    tickSkew d = d := by
  have seen : d.skewSeen = (none, d) := by
    rw [Dev.skewSeen, if_neg (Nat.not_le.mpr hrun), hstray, hmissing]
    rfl
  simp only [tickSkew, seen, ite_self]

theorem noPartner_eq {e : Dev} (hrole : d.role = 1) (hstraps : d.pers.strapsDone = true) (hclk : d.clk.clkinOk = true)
    (hready : d.sys.ready = false) (hpartner : d.link.partner = none) (halone : d.link.alone = false)
    (hdissolved : d.link.dissolved = false) (hpers : d.persError = false)
    (he : e = { d with link := { d.link with alone := true, ownLow := true } }) :
    noPartner d = e.raise { code := cTwinMismatch, sev := some .derate, lvl := .device
                            detail := twinDetail 1 (2 * d.pos + 1) 0 noTick 0 0 0 } := by
  subst he
  refine if_neg ?_
  rw [decide_eq_false (not_not_intro hrole), hstraps, hclk, hready, hpartner, halone, hdissolved, hpers]
  exact Bool.false_ne_true

end Ring

/-- Settles O55: one lemma per event of the ring. -/
theorem ringAnswers : Obligations.RingAnswers := by
  refine ⟨fun s hclk hrun hpers => ?running, fun s => ?lacks⟩
  case running =>
    have live (hring : s.dev.onRing = true) : s.dev.linkLive = true := Dev.linkLive_of hring hclk hrun hpers
    refine ⟨fun hring h => ?_, fun hring h => ?_, fun f g rest hring hf htries hlate hpast hnew hg => ?_,
      fun e hring haligned halive hmode hformed he => ?_, fun halive haligned hdown hjoined hpast hready hmaster => ?_⟩
    · exact exec_of_effect (linkAligned_eq (live hring) h)
    · exact exec_of_effect (syncSend_eq (live hring) h)
    · exact ⟨_, exec_of_effect (linkResend_eq (live hring) hf htries hlate hpast hnew hg), rfl, rfl, mem_insertFrame g.bytes _, rfl⟩
    · exact exec_of_effect (linkDown_lost (live hring) haligned halive hmode hformed he)
    · exact exec_of_effect (linkUp_eq halive haligned hdown hjoined hpast hready hmaster)
  case lacks =>
    refine ⟨fun e hmode hpos hvalid hpers hclk hjoined he => ?_, fun p e halive hmode haligned hdown hp hlost he => ?_,
      fun k b e halive h he => ?_, fun hrun hstray hmissing => ?_,
      fun e hrole hstraps hclk hready hpartner halone hdissolved hpers he => ?_⟩
    · exact exec_of_effect (notJoined_eq hmode hpos hvalid hpers hclk hjoined he)
    · exact exec_of_effect (positionLost_eq halive hmode haligned hdown hp hlost he)
    · exact exec_of_effect (tickSkew_eq halive h he)
    · exact exec_of_effect (tickSkew_none hrun hstray hmissing)
    · exact exec_of_effect (noPartner_eq hrole hstraps hclk hready hpartner halone hdissolved hpers he)

end Sys2Proof.Machine
end


section
/-! The way from the straps to READY, the PLL, the power states and the ends of holds and reactions (R43 to R79, R507 to R533). -/

namespace Sys2Proof.Machine

/-! ## Straps and SET pins -/

section Sequence

variable {d : Dev}

theorem Dev.inPhase {p : Phase} (hphase : d.sys.phase = p) (hclk : d.clk.clkinOk = true) :
    ¬ (d.sys.phase != p || !d.clk.clkinOk) = true := by
  rw [hphase, hclk]
  cases p <;> exact Bool.false_ne_true

theorem strapRound_keeps (up down : BitVec 16) (hphase : d.sys.phase = .straps) (hclk : d.clk.clkinOk = true)
    (hfew : d.pers.rounds.length < 2) :
    strapRound up down d = { d with pers := { d.pers with rounds := d.pers.rounds ++ [(up, down)] } } := by
  have few : (d.pers.rounds ++ [(up, down)]).length < 3 := by
    rw [List.length_append, List.length_singleton]
    omega
  exact (if_neg (Dev.inPhase hphase hclk)).trans (if_pos few)

/-- With the third round the straps are decided. -/
theorem strapRound_decides (up down : BitVec 16) {p : Pers} {e : Dev} (hphase : d.sys.phase = .straps)
    (hclk : d.clk.clkinOk = true) (hmany : 2 ≤ d.pers.rounds.length)
    (hp : p = { d.pers.decideStraps (d.pers.rounds ++ [(up, down)]) with pulls := false })
    (he : e = { d with
      pers := p
      sys := { d.sys with phase := if d.clk.locked then .settling else .locking }
      link := { d.link with driving := decide (({ d with pers := p } : Dev).role ≠ 2) } }) :
    strapRound up down d = if e.strapFault.isSome then e.faultLow else e := by
  have many : ¬ (d.pers.rounds ++ [(up, down)]).length < 3 := by
    rw [List.length_append, List.length_singleton]
    omega
  subst hp he
  exact (if_neg (Dev.inPhase hphase hclk)).trans (if_neg many)

/-- The device with its SET pins and its axes decoded (R60, R61). -/
def Dev.measured (d : Dev) (codes sense : List (List Adc)) : Dev :=
  let d := { d with pers := { d.pers with
    sets := (List.range 12).map fun i => setPinOf (codes.getD i []), sources := false, setsDone := true } }
  { d with pers := { d.pers with
      axisCfg := d.pers.axisCfg.mapIdx fun x _ =>
        axisCode d.noMotion (x.val == 3) (senseOf (sense.getD (2 * x.val) [])) (senseOf (sense.getD (2 * x.val + 1) []))
      senseRaw := (List.range 8).map fun i => BitVec.ofNat 12 (meanCode (sense.getD i [])) } }

section Measure

variable {codes sense : List (List Adc)} (hphase : d.sys.phase = .settling) (hclk : d.clk.clkinOk = true)
  (hlocked : d.clk.locked = true)
include hphase hclk hlocked

theorem setPinMeasure_taken : ¬ (d.sys.phase != .settling || !d.clk.clkinOk || !d.clk.locked) = true := by
  rw [hphase, hclk, hlocked]
  exact Bool.false_ne_true

/-- A personality error stops the sequence with its first cause and pin. -/
theorem setPinMeasure_bad {e : Dev} (he : e = d.measured codes sense) {cause pin : Nat} (hfault : e.persFault = some (cause, pin)) :
    setPinMeasure codes sense d = Dev.faultLow { e.decidePorts with
      sys := { e.decidePorts.sys with phase := .personalityError }
      pers := { e.decidePorts.pers with error := true, cause := cause, pin := pin } } := by
  subst he
  refine (if_neg (setPinMeasure_taken hphase hclk hlocked)).trans ?_
  dsimp only
  split
  · next c p h =>
    cases hfault.symm.trans h
    rfl
  · next h => exact absurd (hfault.symm.trans h) nofun

theorem setPinMeasure_good {e f : Dev} (he : e = d.measured codes sense) (hgood : e.persFault = none)
    (hf : f = { e with sys := { e.sys with phase := .cards } }) :
    setPinMeasure codes sense d = if f.role ≠ 2 ∧ f.cardsRead = true then f.finishPers else f := by
  subst he hf
  refine (if_neg (setPinMeasure_taken hphase hclk hlocked)).trans ?_
  dsimp only
  split
  · next h => exact absurd (hgood.symm.trans h) nofun
  · simp only [Bool.and_eq_true, decide_eq_true_eq]
    rfl

end Measure

end Sequence

/-- Settles O12: the rounds before and with the third, and the SET pins with and without a personality error. -/
theorem strapsAndSetPinsAnswer : Obligations.StrapsAndSetPinsAnswer := by
  refine ⟨fun s up down hphase hclk => ⟨fun hfew => ?_, fun hmany p e hp he => ?_⟩,
    fun s codes sense e hphase hclk hlocked he => ⟨fun cause pin hfault => ?_, fun f hgood hf => ?_⟩⟩
  · exact exec_of_effect (strapRound_keeps up down hphase hclk hfew)
  · exact exec_of_effect (strapRound_decides up down hphase hclk hmany hp he)
  · exact exec_of_effect (setPinMeasure_bad hphase hclk hlocked he hfault)
  · exact exec_of_effect (setPinMeasure_good hphase hclk hlocked he hgood hf)

end Sys2Proof.Machine
end


section
/-! From the head cards to READY, the PLL, the power states and the ends of holds and reactions (R62 to R79, R507 to R549). -/

namespace Sys2Proof.Machine

/-! ## From the head cards to READY -/

section Sequence

variable {d : Dev}

theorem headCardReadDone_eq {p : Fin 4} {image : Option (List Byte)} {e : Dev} (hphase : d.sys.phase = .cards)
    (hclk : d.clk.clkinOk = true) (hrole : d.role ≠ 2) (hreads : d.readsCard p = true) (hnew : (d.pers.cards.get p).read = false)
    (he : e = { d with pers := { d.pers with cards := d.pers.cards.set p { read := true, image := image } } }) :
    headCardReadDone p image d = if e.cardsRead then e.finishPers else e := by
  subst he
  refine if_neg ?_
  rw [hphase, hclk, beq_false_of_ne hrole, hreads, hnew]
  exact Bool.false_ne_true

theorem cardImageTimeout_eq (hphase : d.sys.phase = .cards) (hclk : d.clk.clkinOk = true) (hrole : d.role = 2)
    (hnone : ∀ x ∈ d.link.images.toList, x.2 = (false, false)) :
    cardImageTimeout d = Dev.finishPers { d with pers := { d.pers with cards := Quad.all { read := true } } } := by
  have none_came : d.link.images.toList.any (fun x => x.2.1 || x.2.2) = false :=
    List.any_eq_false.mpr fun x hx => by rw [hnone x hx]; exact Bool.false_ne_true
  refine if_neg ?_
  rw [hphase, hclk, decide_eq_false (not_not_intro hrole), none_came]
  exact Bool.false_ne_true

theorem vintageDone_eq {e : Dev} (hphase : d.sys.phase = .vintage) (hclk : d.clk.clkinOk = true)
    (he : e = d.chooseVintage.correctedAtReset.foldl (fun d i => d.corrected i) d.chooseVintage) :
    vintageDone d = { (e.loadContent e.contentOf).afterLoad with
      sys := { (e.loadContent e.contentOf).afterLoad.sys with phase := .selfTest } } := by
  subst he
  exact if_neg (Dev.inPhase hphase hclk)

theorem pressSelfTest_eq {pass : BitVec 4} {margin : Quad (BitVec 16)} {e : Dev} (hphase : d.sys.phase = .selfTest)
    (hclk : d.clk.clkinOk = true)
    (he : e = (let d := Dev.each4 { d with sys := { d.sys with phase := .almostReady } } fin4
                 (fun k d => d.testSlice k (pass.getLsbD k.val))
               ((d.each4 fin4 fun k d => d.testFenced k).sliceMargins margin).startModels)) :
    pressSelfTest pass margin d = if e.slicesIn = 0 then e.pressless else e := by
  subst he
  exact if_neg (Dev.inPhase hphase hclk)

theorem readyRise_eq {cover : Bool} {opens : Quad Bool} {e f : Dev} (hrise : d.mayRise = true)
    (he : e = Dev.openSession (Dev.tellEarly
      (let d := if d.solo then { d with link := { d.link with ownLow := decide (d.role ≠ 0) } } else d.form
       { d with sys := { d.sys with phase := .run, ready := true } })))
    (hf : f = { e with media := { e.media with coverPin := cover }
                       heads := e.heads.mapIdx fun p h => { h with openPin := e.openActive p (opens.get p) } }) :
    readyRise cover opens d = Dev.evaluatePins { f with media := { f.media with cover := f.coverActive } } := by
  subst he hf
  exact if_neg (by rw [hrise]; exact Bool.false_ne_true)

end Sequence

/-- Settles O14: each event of the sequence at its phase. -/
theorem sequenceToReadyAnswers : Obligations.SequenceToReadyAnswers := by
  refine ⟨fun s hclk => ⟨fun p image e hphase hrole hreads hnew he => ?_, fun hphase hrole hnone => ?_, fun e hphase he => ?_⟩,
    fun s => ⟨fun pass margin e hphase hclk he => ?_, fun cover opens e f hrise he hf => ?_⟩⟩
  · exact exec_of_effect (headCardReadDone_eq hphase hclk hrole hreads hnew he)
  · exact exec_of_effect (cardImageTimeout_eq hphase hclk hrole hnone)
  · exact exec_of_effect (vintageDone_eq hphase hclk he)
  · exact exec_of_effect (pressSelfTest_eq hphase hclk he)
  · exact exec_of_effect (readyRise_eq hrise he hf)

/-! ## The PLL (R509 to R512) -/

theorem Domain.rampTo_src {c : Domain} {t : ClkSrc} (khz : Nat) (h : c.src = t) : (c.rampTo khz t).src = t := by
  unfold Domain.rampTo
  dsimp only
  split
  · rfl
  · exact h

theorem Clk.dom_setDom_self (c : Clk) (x : Dom) (v : Domain) : (c.setDom x v).dom x = v := by
  cases x <;> rfl

/-- A domain that rises takes the PLL's clock, whether it stood or ran from its fallback source. -/
theorem Dev.riseDom_src (d : Dev) (x : Dom) : ((d.riseDom x).clk.dom x).src = .pll := by
  unfold Dev.riseDom
  dsimp only
  rw [Clk.dom_setDom_self]
  split
  · rfl
  · exact Domain.rampTo_src _ rfl

theorem Dev.startDomains_locked {d : Dev} (h : d.clk.locked = true) :
    d.startDomains = { ((d.riseDom .core).riseDom .motion).riseDom .adc with
      clk := { (((d.riseDom .core).riseDom .motion).riseDom .adc).clk with headRun := true, linkRun := true } } :=
  if_pos h

section Pll

variable {d e : Dev}

/-- The device at lock: the SET sources go on in a reset that samples the pins, and the domains start. -/
def Dev.atLock (d : Dev) : Dev :=
  Dev.startDomains { d with
    clk := { d.clk with locked := true, unlockTs := none, unlockLate := false }
    pers := { d.pers with sources := !d.pers.setsDone && (d.sys.phase == .straps || d.sys.phase == .locking) } }

theorem Dev.atLock_runs (d : Dev) :
    d.atLock.clk.locked = true ∧ d.atLock.clk.headRun = true ∧ d.atLock.clk.linkRun = true ∧
      d.atLock.clk.core.src = .pll ∧ d.atLock.clk.motion.src = .pll ∧ d.atLock.clk.adc.src = .pll := by
  have h : d.atLock = _ := Dev.startDomains_locked rfl
  rw [h]
  exact ⟨rfl, rfl, rfl, Dev.riseDom_src _ .core, Dev.riseDom_src _ .motion, Dev.riseDom_src _ .adc⟩

theorem Dev.atLock_sys (d : Dev) : d.atLock.sys = d.sys := by
  have h : d.atLock = _ := Dev.startDomains_locked rfl
  rw [h]
  rfl

section Lock

variable (hclk : d.clk.clkinOk = true) (hon : d.clk.pllOn = true) (hlocked : d.clk.locked = false) (hawake : d.sys.sleep = .awake)
include hclk hon hlocked hawake

theorem pllLock_taken : ¬ (!d.clk.clkinOk || !d.clk.pllOn || d.clk.locked) = true ∧ ¬ (d.sys.sleep == .doze) = true := by
  rw [hclk, hon, hlocked, hawake]
  exact ⟨Bool.false_ne_true, Bool.false_ne_true⟩

theorem pllLock_reset (hphase : d.sys.phase = .locking) :
    pllLock d = { d.atLock with sys := { d.atLock.sys with
      phase := if d.atLock.pers.valid then .vintage else if d.atLock.pers.error then .personalityError
        else if d.atLock.pers.setsDone then .cards else .settling } } := by
  obtain ⟨taken, notDoze⟩ := pllLock_taken hclk hon hlocked hawake
  have phase : d.atLock.sys.phase = .locking := d.atLock_sys ▸ hphase
  refine (if_neg taken).trans ((if_neg notDoze).trans ?_)
  dsimp only
  split
  · rfl
  · next h => exact absurd (phase.symm.trans h) nofun
  · next h _ => exact absurd phase h

theorem pllLock_run (hphase : d.sys.phase = .run) (hcause : d.sys.wakeCause = none) :
    pllLock d = (let r := (d.atLock.unkill fin4 cPllUnlock).endCond cPllUnlock 0
                 if r.domainsBack then r.closeShadow .domain (2 * ms) else r) := by
  obtain ⟨taken, notDoze⟩ := pllLock_taken hclk hon hlocked hawake
  have phase : d.atLock.sys.phase = .run := d.atLock_sys ▸ hphase
  have cause : d.atLock.sys.wakeCause = none := d.atLock_sys ▸ hcause
  refine (if_neg taken).trans ((if_neg notDoze).trans ?_)
  dsimp only
  split
  · next h => exact absurd (phase.symm.trans h) nofun
  · split
    · next c h => exact absurd (cause.symm.trans h) nofun
    · rfl
  · next _ h => exact absurd phase h

end Lock

theorem pllUnlock_early (hclk : d.clk.clkinOk = true) (hon : d.clk.pllOn = true) (hlocked : d.clk.locked = true)
    (hearly : d.operating = false ∨ d.sys.ready = false) : pllUnlock d = d.markUnlock.fallAll := by
  refine (if_neg ?_).trans (if_pos ?_)
  · rw [hclk, hon, hlocked]
    exact Bool.false_ne_true
  · rcases hearly with h | h
    · rw [h, Bool.not_false, Bool.true_or]
    · rw [h, Bool.not_false, Bool.or_true]

/-- In run the strobes are killed, the fault is raised, and every domain falls. -/
theorem pllUnlock_run {det : List Byte} {b e r : Dev} (hclk : d.clk.clkinOk = true) (hon : d.clk.pllOn = true)
    (hlocked : d.clk.locked = true) (hop : d.operating = true) (hready : d.sys.ready = true)
    (hdet : det = clockDetail 0xFF 0 d.firingTick 0xFFFFFFFF 0) (hb : b = d.markUnlock.unlockStrobes)
    (he : e = (if b.pairSecondary then
      b.sendEvent cPllUnlock Sev.pause.code (b.scopeByte .device 0) 0 (lineTickOf cPllUnlock det) 0 det else b))
    (hr : r = Dev.fallAll (e.raise { code := cPllUnlock, sev := some .pause, lvl := .device, job := e.bandJob, detail := det })) :
    pllUnlock d = if r.link.formed then r.dissolve 8 cPllUnlock.toNat noTick 0 else r := by
  subst hr he hb hdet
  refine (if_neg ?_).trans (if_neg ?_)
  · rw [hclk, hon, hlocked]
    exact Bool.false_ne_true
  · rw [hop, hready]
    exact Bool.false_ne_true

theorem pllTimeout_eq {t : Ts} (hclk : d.clk.clkinOk = true) (hon : d.clk.pllOn = true) (hlocked : d.clk.locked = false)
    (hts : d.clk.unlockTs = some t) (hlate : d.clk.unlockLate = false) (hpast : d.past t (1 * ms) = true) (halive : d.alive = true) :
    pllTimeout d = Dev.raise { d with clk := { d.clk with unlockLate := true } }
      { code := cPllUnlock, sev := some .stopDevice, lvl := .device, detail := clockDetail 0xFF 0 noTick 0xFFFFFFFF 0
        related := if d.clk.unlockSeq = 0 then none else some d.clk.unlockSeq } := by
  unfold pllTimeout
  rw [hts]
  refine if_neg ?_
  rw [hclk, hon, hlocked, hlate, hpast, halive]
  exact Bool.false_ne_true

end Pll

/-- Settles O15: lock in the reset sequence and in run, its loss, and the relock timeout. -/
theorem pllAnswers : Obligations.PllAnswers := by
  refine ⟨fun s e hclk hon hlocked hawake he => ?lock, fun s hclk hon => ⟨fun hlocked hearly => ?_,
    fun det d e r hlocked hop hready hdet hd he hr => ?_, fun t hlocked hts hlate hpast halive => ?_⟩⟩
  case lock =>
    have he : e = s.dev.atLock := he
    subst he
    exact ⟨s.dev.atLock_runs, fun hphase => exec_of_effect (pllLock_reset hclk hon hlocked hawake hphase),
      fun hphase hcause => exec_of_effect (pllLock_run hclk hon hlocked hawake hphase hcause)⟩
  · exact exec_of_effect (pllUnlock_early hclk hon hlocked hearly)
  · exact exec_of_effect (pllUnlock_run hclk hon hlocked hop hready hdet hd he hr)
  · exact exec_of_effect (pllTimeout_eq hclk hon hlocked hts hlate hpast halive)

/-! ## The power states (R524 to R533) -/

section Power

variable {d : Dev}

/-- What a pair's primary says of its sleep touches the link alone. -/
theorem Dev.tellSleep_frame (d : Dev) : { d.tellSleep with link := d.link } = d := by
  unfold Dev.tellSleep
  split
  · exact d.sendFrame_frame _ _ _ _
  · rfl

/-- In Doze every axis is released where it stands, and MOTION, ADC and HEAD stop. -/
structure Dozes (d e : Dev) : Prop where
  sleep : e.sys.sleep = .doze
  since : e.sys.dozeTs = d.clk.now
  motion : e.clk.motion.src = .stopped
  adc : e.clk.adc.src = .stopped
  head : e.clk.headRun = false
  link : e.clk.linkRun = (d.clk.linkRun && d.link.formed)
  axes : ∀ x, (e.axes.get x).energised = false ∧ (e.axes.get x).pos = (d.axes.get x).pos ∧
    (e.axes.get x).phase = (d.axes.get x).phase
  win : e.win = d.win
  rings : e.rings = d.rings
  heads : e.heads = d.heads
  mot : e.mot = d.mot

theorem Dev.enterDoze_dozes (d : Dev) : Dozes d d.enterDoze := by
  unfold Dev.enterDoze
  dsimp only
  have axes (x : Fin 4) (off : Fin 4 → Axis → Axis) (hoff : ∀ x a, (off x a).energised = false ∧ (off x a).pos = a.pos ∧
      (off x a).phase = a.phase) : ((d.axes.mapIdx off).get x).energised = false ∧
      ((d.axes.mapIdx off).get x).pos = (d.axes.get x).pos ∧ ((d.axes.mapIdx off).get x).phase = (d.axes.get x).phase := by
    match x with | 0 | 1 | 2 | 3 => exact hoff _ _
  split <;> exact ⟨rfl, rfl, rfl, rfl, rfl, rfl, fun x => axes x _ fun _ _ => ⟨rfl, rfl, rfl⟩, rfl, rfl, rfl, rfl⟩

theorem Dozes.told {d e : Dev} (h : Dozes d e) : Dozes d e.tellSleep := by
  rw [show e = { e.tellSleep with link := e.link } from e.tellSleep_frame.symm] at h
  exact { h with }

theorem wake_awake (hclk : d.clk.clkinOk = true) (hawake : d.sys.sleep = .awake) :
    wake .sleepLow d = { d with sys := { d.sys with sleepPin := false, sleepIgnored := false } } := by
  simp only [wake, hclk, Bool.not_true, Bool.false_eq_true, if_false, hawake, beq_self_eq_true, if_true]

section Doze

variable {c : WakeCause} (hclk : d.clk.clkinOk = true) (hdoze : d.sys.sleep = .doze) (halive : d.alive = true)
  (hc : c ≠ .serialFrame)
include hclk hdoze halive hc

theorem wake_doze (hsec : d.pairSecondary = false) : wake c d = (d.startDomains.woken 2 c).tellSleep := by
  simp only [wake, hclk, Bool.not_true, Bool.false_eq_true, if_false, hdoze, beq_false_of_ne hc, halive, Bool.or_self, hsec,
    Dev.leaveDoze]

theorem wake_secondary (hsec : d.pairSecondary = true) : wake c d = { d with sys := { d.sys with wakeCause := some c } } := by
  simp only [wake, hclk, Bool.not_true, Bool.false_eq_true, if_false, hdoze, beq_false_of_ne hc, halive, Bool.or_self, hsec, if_true]

end Doze

theorem wake_dormant {c : WakeCause} (hclk : d.clk.clkinOk = true) (hdormant : d.sys.sleep = .dormant) (halive : d.alive = true)
    (hnone : d.sys.wakeCause = none) (hframe : c = .serialFrame → d.uart.deferred ≠ none) :
    wake c d = { d with
      sys := { d.sys with wakeCause := some c }
      clk := { d.clk with pllOn := true, unlockTs := some d.clk.now, unlockLate := false, unlockSeq := 0
                          core := ⟨.fallback, ratioFor (domLow .core), 0, 0, 8, .fallback⟩ } } := by
  have held : (c == .serialFrame && d.uart.deferred.isNone) = false := by
    by_cases hc : c = .serialFrame
    · rw [Option.isNone_eq_false_iff.mpr (Option.isSome_iff_ne_none.mpr (hframe hc)), Bool.and_false]
    · rw [beq_false_of_ne hc, Bool.false_and]
  simp only [wake, hclk, Bool.not_true, Bool.false_eq_true, if_false, hdormant, hnone, Option.isSome_none, halive, Bool.or_self, held]

end Power

/-- Settles O17: into Doze and Dormant and out of each. -/
theorem powerStatesAnswer : Obligations.PowerStatesAnswer := by
  intro s
  refine ⟨fun hclk hign hpin => ?request, fun hmay hsec => ?doze, fun hdoze halive hpin hpast hmode hcause => ?dormant,
    fun hclk => ⟨fun hawake => ?awake, fun c hdoze halive hc => ⟨fun hsec => ?leaves, fun hsec => ?secondary⟩,
      fun c hdormant halive hcause hframe => ?wakes⟩⟩
  case request =>
    refine exec_of_effect (if_neg ?_)
    rw [hclk, hign, hpin]
    exact Bool.false_ne_true
  case doze =>
    have told : dozeEntry s.dev = s.dev.enterDoze.tellSleep := if_neg (by rw [hmay, hsec]; exact Bool.false_ne_true)
    have h := s.dev.enterDoze_dozes.told
    exact ⟨_, exec_of_effect told, h.sleep, h.since, h.motion, h.adc, h.head, h.link, h.axes, h.win, h.rings, h.heads, h.mot⟩
  case dormant =>
    refine ⟨_, exec_of_effect (if_neg ?_), rfl, rfl, rfl, rfl, rfl, rfl, rfl, rfl, rfl, rfl⟩
    rw [hdoze, halive, hpin, hpast, decide_eq_false (not_not_intro hmode), hcause]
    exact Bool.false_ne_true
  case awake => exact exec_of_effect (wake_awake hclk hawake)
  case leaves => exact exec_of_effect (wake_doze hclk hdoze halive hc hsec)
  case secondary => exact exec_of_effect (wake_secondary hclk hdoze halive hc hsec)
  case wakes => exact exec_of_effect (wake_dormant hclk hdormant halive hcause hframe)

/-! ## The ends of holds and reactions -/

/-- Settles O18: each event under the conditions of its own rule. -/
theorem holdsAndEndsAnswer : Obligations.HoldsAndEndsAnswer := by
  intro s hop
  refine ⟨fun q step hready hcounts => ?_, fun p set t e hon hts hpast he => ?_, fun p r hr => ?_, fun seq r hr => ?_,
    fun margin hawake => ?_⟩
  · refine exec_of_effect (if_neg ?_)
    rw [hop, hready, hcounts]
    exact Bool.false_ne_true
  · subst he
    refine exec_of_effect (?_ : firingHoldEnd p set s.dev = _)
    unfold firingHoldEnd
    rw [hts]
    refine if_neg ?_
    rw [hop, hon, hpast]
    exact Bool.false_ne_true
  · refine exec_of_effect (?_ : portReset p s.dev = _)
    simp only [portReset, hop, Bool.not_true, Bool.false_eq_true, if_false, hr]
  · refine exec_of_effect (?_ : reactionEnd seq s.dev = _)
    simp only [reactionEnd, hop, Bool.not_true, Bool.false_eq_true, if_false, hr]
  · refine exec_of_effect (if_pos ?_)
    rw [Dev.awake, hop, hawake]
    rfl

end Sys2Proof.Machine
end


section
/-! Line ticks, sample sets and press results (R15 to R19, R316, R573; R225 to R247). -/

namespace Sys2Proof.Machine

/-! ## The tick -/

section Tick

variable {d e : Dev} {ts : Ts}

/-- A pulse before READY is a mark and nothing else. -/
theorem lineTick_marked {fine : Fin 10} (h : d.link.mark.isSome = true ∨ d.link.markAt.isSome = true) :
    lineTick fine d = d.markPulse := by
  refine if_pos ?_
  rcases h with h | h
  · rw [h, Bool.true_or]
  · rw [h, Bool.or_true]

theorem lineTick_due {fine : Fin 10} {f : Dev} (hmark : d.link.mark = none) (hat : d.link.markAt = none)
    (hop : d.operating = true) (hready : d.sys.ready = true) (hnow : d.tickNow = some ts)
    (hf : f = Dev.notePulse { d with link := { d.link with edge := fine } }) : lineTick fine d = f.tickAt ts := by
  subst hf
  simp only [lineTick, hmark, hat, Option.isSome_none, Bool.or_self, Bool.false_eq_true, if_false, hop, hready, Bool.not_true, hnow]

/-- Whether the line due is ready: its press result complete, its first plane in. -/
def Dev.lineReady (d : Dev) : Bool := match d.linePending with | some p => p.complete && d.line.shiftDone | none => false

/-- Whether a chip that follows the pulses waits for its line. -/
def Dev.lineWaits (d : Dev) : Bool :=
  d.wired && (d.line.band.map fun b => b.fromRest).getD false ||
    d.isMember && d.line.pend.isNone && (d.line.band.map fun b => !d.linePresent b.raw b.base b.next).getD false

section At

variable (he : e = Dev.tickReacts { d with mot := { d.mot with tickDue := none } })
include he

/-- With no line due at a device without a band the tick only counts. -/
theorem Dev.tickAt_bare (hdue : e.lineDue = false) (hband : e.line.band = none)
    (hframes : e.mover = none ∨ e.framesMissing = false) : d.tickAt ts = (e.raiseTick ts).tickWork ts none := by
  subst he
  refine (if_pos ?due).trans ((if_neg ?waits).trans (if_pos ?counts))
  case due => rw [hdue, Bool.not_false]
  case waits =>
    rcases hframes with h | h
    · rw [h]
      exact Bool.false_ne_true
    · rw [h, Bool.and_false]
      exact Bool.false_ne_true
  case counts => rw [hband, Option.isNone_none, Bool.or_true, Bool.true_or]

variable (hdue : e.lineDue = true)
include hdue

theorem Dev.tickAt_missing (hframes : e.framesMissing = true) : d.tickAt ts = e.stopBand cLinkDown 0 true := by
  subst he
  exact (if_neg (by rw [hdue]; exact Bool.false_ne_true)).trans (if_pos hframes)

variable (hframes : e.framesMissing = false)
include hframes

theorem Dev.tickAt_killed {c : W16} (hkill : e.tickKill = some c) : d.tickAt ts = (e.stopBand c 0 true).noLine ts := by
  subst he
  refine (if_neg (by rw [hdue]; exact Bool.false_ne_true)).trans ((if_neg (by rw [hframes]; exact Bool.false_ne_true)).trans ?_)
  dsimp only
  split
  · next x h =>
    cases hkill.symm.trans h
    rfl
  · next h => exact absurd (hkill.symm.trans h) nofun

variable (hkill : e.tickKill = none)
include hkill

theorem Dev.tickAt_line : d.tickAt ts =
    if e.lineReady && !e.fireLate then (e.raiseTick ts).tickWork ts e.linePending
    else if e.lineWaits then e.bareTick ts else e.overrunStop.noLine ts := by
  subst he
  refine (if_neg (by rw [hdue]; exact Bool.false_ne_true)).trans ((if_neg (by rw [hframes]; exact Bool.false_ne_true)).trans ?_)
  dsimp only
  split
  · next h => exact absurd (hkill.symm.trans h) nofun
  · rfl

theorem Dev.tickAt_begins {p : PendLine} (hp : e.linePending = some p) (hcomplete : p.complete = true)
    (hshift : e.line.shiftDone = true) (hlate : e.fireLate = false) : d.tickAt ts = (e.raiseTick ts).tickWork ts (some p) := by
  have ready : (e.lineReady && !e.fireLate) = true := by
    simp only [Dev.lineReady, hp, hcomplete, hshift, hlate, Bool.not_false, Bool.and_self]
  rw [Dev.tickAt_line he hdue hframes hkill, if_pos ready, hp]

/-- A chip of its own does not wait for a line that is not ready. -/
theorem Dev.tickAt_overrun (hwired : e.wired = false)
    (hlack : e.linePending = none ∨ (∃ p, e.linePending = some p ∧ p.complete = false) ∨ e.line.shiftDone = false ∨
      e.fireLate = true) : d.tickAt ts = e.overrunStop.noLine ts := by
  have notReady : ¬ (e.lineReady && !e.fireLate) = true := by
    unfold Dev.lineReady
    rcases hlack with h | ⟨p, h, hc⟩ | h | h
    · rw [h]; exact Bool.false_ne_true
    · simp only [h, hc, Bool.false_and, Bool.false_eq_true, not_false_eq_true]
    · rw [h]
      split <;> simp
    · rw [h, Bool.not_true, Bool.and_false]
      exact Bool.false_ne_true
  have notWaiting : ¬ e.lineWaits = true := by
    obtain ⟨-, hmember⟩ := Bool.or_eq_false_iff.mp hwired
    rw [Dev.lineWaits, hwired, hmember]
    exact Bool.false_ne_true
  rw [Dev.tickAt_line he hdue hframes hkill, if_neg notReady, if_neg notWaiting]

end At

end Tick

/-- Settles O28: the cases of a due tick, and what a raised one changes. -/
theorem lineTicksAnswer : Obligations.LineTicksAnswer := by
  refine ⟨fun s fine => ⟨fun h => ?marked, fun ts f e hmark hat hop hready hnow hf he => ?due⟩, fun d ts => ?raised⟩
  case marked => exact exec_of_effect (lineTick_marked h)
  case due =>
    have due : effect (.lineTick fine) s.dev = f.tickAt ts := lineTick_due hmark hat hop hready hnow hf
    refine ⟨fun hno hband hframes => ?_, fun hline hframes => ?_, fun hline hframes => ⟨fun c hkill => ?_,
      fun p hkill hp hcomplete hshift hlate => ?_, fun hkill hwired hlack => ?_⟩⟩
    · exact exec_of_effect (due.trans (Dev.tickAt_bare he hno hband hframes))
    · exact exec_of_effect (due.trans (Dev.tickAt_missing he hline hframes))
    · exact exec_of_effect (due.trans (Dev.tickAt_killed he hline hframes hkill))
    · exact exec_of_effect (due.trans (Dev.tickAt_begins he hline hframes hkill hp hcomplete hshift hlate))
    · exact exec_of_effect (due.trans (Dev.tickAt_overrun he hline hframes hkill hwired hlack))
  case raised =>
    refine ⟨rfl, rfl, rfl, fun hring => ?_⟩
    have quiet : (if d.onRing && d.ticksRing then some ts else d.link.tickOut) = d.link.tickOut := by
      rw [hring, Bool.false_and, if_neg Bool.false_ne_true]
    simp only [Dev.raiseTick, quiet]

/-! ## Sample sets and the press -/

section Press

variable {d : Dev}

theorem bandResume_eq {b : BandRt} (hb : d.line.band = some b) (hrest : b.phase = .resting) (hmay : d.bandMayStart b = true) :
    bandResume d = d.startBand := by
  have start : (b.phase == .resting && d.bandMayStart b) = true := by rw [hrest, hmay]; rfl
  simp only [bandResume, hb, start, if_true]

theorem startSet_eq {set : SampleSet} {t : Ts} (hop : d.operating = true) (hsec : d.pairSecondary = false)
    (hstart : d.line.startTs = some t) (hat : atOrAfter d.clk.now t = true) :
    startSet set d = (d.startSet set t).sendSet 1 t set := by
  simp only [startSet, hop, hsec, Bool.not_true, Bool.or_self, Bool.false_eq_true, if_false, hstart, hat, if_true]

/-- Two slices that are in service differ. -/
theorem Dev.slices_differ {x y : Fin 4} (hmany : 1 < d.slicesIn) (hne : x ≠ y) (hx : d.sliceIn x = true) (hy : d.sliceIn y = true) :
    ¬ (d.slicesIn ≤ 1 || x == y || !d.sliceIn x || !d.sliceIn y) = true := by
  rw [decide_eq_false (Nat.not_le.mpr hmany), beq_false_of_ne hne, hx, hy]
  exact Bool.false_ne_true

variable {p : PendLine} {e : Dev} (hop : d.operating = true) (hp : d.line.pend = some p) (hopen : p.complete = false)

/-- The pending line is complete and the cross-check goes on to the next block. -/
def Dev.pressFits (d : Dev) (p : PendLine) : Dev :=
  { d with line := { d.line with
    pend := some { p with complete := true }, checkBlock := (d.line.checkBlock + 1) % max d.bandBlocks 1 } }

include hop hp hopen

theorem pressDone_agree : pressDone .agree d = d.pressFits p := by
  simp only [pressDone, hop, Bool.not_true, Bool.false_eq_true, if_false, hp, hopen]
  rfl

theorem pressDone_differ (x y w : Fin 4) : pressDone (.differ x y w) d =
    if d.slicesIn ≤ 1 || x == y || !d.sliceIn x || !d.sliceIn y then d.pressFits p
    else if d.slicesIn = 2 then
      d.raiseOwn { code := cPressDisagree, sev := some .stopDevice, lvl := .device, job := d.bandJob
                   detail := pressDetail (min x.val y.val) 2 d.nextLineTick d.slicesIn 0 0 0 }
    else (d.fence w 2 d.nextLineTick).losePend w := by
  simp only [pressDone, hop, Bool.not_true, Bool.false_eq_true, if_false, hp, hopen]
  rfl

theorem pressDone_nothing {x y w : Fin 4} (h : d.slicesIn ≤ 1 ∨ x = y ∨ d.sliceIn x = false ∨ d.sliceIn y = false) :
    pressDone (.differ x y w) d = d.pressFits p := by
  rw [pressDone_differ hop hp hopen, if_pos]
  rcases h with h | h | h | h <;> simp [h]

theorem pressDone_two {x y w : Fin 4} (htwo : d.slicesIn = 2) (hne : x ≠ y) (hx : d.sliceIn x = true) (hy : d.sliceIn y = true) :
    pressDone (.differ x y w) d = d.raiseOwn { code := cPressDisagree, sev := some .stopDevice, lvl := .device, job := d.bandJob
                                               detail := pressDetail (min x.val y.val) 2 d.nextLineTick 2 0 0 0 } := by
  rw [pressDone_differ hop hp hopen, if_neg (Dev.slices_differ (by omega) hne hx hy), if_pos htwo, htwo]

theorem pressDone_more {x y w : Fin 4} (hmore : 2 < d.slicesIn) (hne : x ≠ y) (hx : d.sliceIn x = true) (hy : d.sliceIn y = true) :
    pressDone (.differ x y w) d = (d.fence w 2 d.nextLineTick).losePend w := by
  rw [pressDone_differ hop hp hopen, if_neg (Dev.slices_differ (by omega) hne hx hy), if_neg (by omega)]

end Press

/-- Settles O29: the two sets and the start, the cross-check by the number of slices in service, and a slice's parity. -/
theorem linesArePressed : Obligations.LinesArePressed := by
  refine ⟨fun s => ⟨fun set hop hsec hsampled => ?_, fun set t hop hsec hstart hat => ?_, fun b hb hrest hmay => ?_⟩,
    fun s hop => ⟨fun p e hp hopen he => ?_, fun k hin => ?_⟩⟩
  · refine exec_of_effect (if_neg ?_)
    rw [hop, hsampled, hsec]
    exact Bool.false_ne_true
  · exact exec_of_effect (startSet_eq hop hsec hstart hat)
  · exact exec_of_effect (bandResume_eq hb hrest hmay)
  · subst he
    exact ⟨exec_of_effect (pressDone_agree hop hp hopen), fun x y w h => exec_of_effect (pressDone_nothing hop hp hopen h),
      fun x y w htwo hne hx hy => exec_of_effect (pressDone_two hop hp hopen htwo hne hx hy),
      fun x y w hmore hne hx hy => exec_of_effect (pressDone_more hop hp hopen hmore hne hx hy)⟩
  · refine exec_of_effect (if_neg ?_)
    rw [hop, hin]
    exact Bool.false_ne_true

end Sys2Proof.Machine
end


section
/-! The monitors of the head ports and the steps of a tasting run (R269 to R292). -/

namespace Sys2Proof.Machine

/-! ## Monitors and rechecks -/

section Monitors

variable {d : Dev} {p : Fin 4}

theorem strobeGuard_eq (g : Fin 8) (hop : d.operating = true) :
    strobeGuard p g d = ((d.kill [p] cStrobeGuard p.val).raisePort cStrobeGuard p
      (headDetail (d.lineFor [p]).1 (d.lineFor [p]).2 g.val 0 0 0)).shadowPorts [p] :=
  if_neg (by rw [hop]; exact Bool.false_ne_true)

/-- A stuck strobe, as it is reported: with the line under way, though the guard has cut it already. -/
def Dev.stuckRise (d : Dev) (p : Fin 4) (g : Fin 8) : Rise :=
  let under := d.bandFeeds p.val && (d.line.fire.map fun (f : FireLine) => !f.ended).getD false
  let at_ := if under then (d.firingTick, d.slotsFired) else d.lineFor [p]
  { code := cStrobeStuck, sub := p.val, sev := some .stopDevice, lvl := .device, port := p.val,
    job := if d.bandFeeds p.val then d.bandJob else none, ports := 2 ^ p.val, detail := headDetail at_.1 at_.2 g.val 0 0 0 }

theorem strobeStuck_eq (g : Fin 8) (hpers : d.persError = false) :
    strobeStuck p g d = Dev.raise { d with sys := { d.sys with hmeas := true, hmeasStuck := true, hmeasFallTs := none } }
      (d.stuckRise p g) :=
  if_neg (by rw [hpers]; exact Bool.false_ne_true)

section Powered

variable (halive : d.alive = true) (hon : d.portOn p = true)
include halive hon

theorem overtempHard_eq (hnew : (d.heads.get p).hardTrip = false) :
    overtempHard p d = (((d.kill [p] cHeadOvertempHard p.val).onHead p fun h => { h with hardTrip := true }).raisePort
      cHeadOvertempHard p (headDetail (d.lineFor [p]).1 (d.lineFor [p]).2 0 (d.tempOf p (d.heads.get p).rawTh) (d.hardLimit p)
        0)).shadowPorts [p] :=
  if_neg (by rw [halive, hon, hnew]; exact Bool.false_ne_true)

theorem vhHigh_eq (c : Adc) (hnew : (d.heads.get p).vhHighOn = false) :
    vhHigh p c d = (((d.kill [p] cVhHigh p.val).onHead p fun h => { h with vhHighOn := true }).raisePort cVhHigh p
      (headDetail (d.lineFor [p]).1 (d.lineFor [p]).2 0 (vhOf c.toNat) 3690 0)).shadowPorts [p] :=
  if_neg (by rw [halive, hon, hnew]; exact Bool.false_ne_true)

theorem headOpen_eq {high : Bool} {ns : BitVec 16} {e : Dev} (hns : filterNs (d.openInput p) ≤ ns.toNat)
    (hopen : d.openActive p high = true) (he : e = d.onHead p fun h => { h with openPin := true }) :
    headOpen p high ns d = if e.awake then ((e.kill [p] cHeadOpen p.val).raisePort cHeadOpen p
        (headDetail (e.lineFor [p]).1 (e.lineFor [p]).2 0 0 0 0)).shadowPorts [p]
      else e.kill [p] cHeadOpen p.val := by
  subst he
  refine if_neg ?_
  rw [halive, hon, decide_eq_false (Nat.not_lt.mpr hns), hopen]
  exact Bool.false_ne_true

end Powered

theorem headOpenClear_eq {high : Bool} (halive : d.alive = true) (hpin : (d.heads.get p).openPin = true)
    (hshut : d.openActive p high = false) :
    headOpenClear p high d =
      ((d.onHead p fun h => { h with openPin := false }).unkill [p] cHeadOpen).endCond cHeadOpen p.val :=
  if_neg (by rw [halive, hpin, hshut]; exact Bool.false_ne_true)

theorem hardRecheck_eq {c : Adc} {e : Dev} (hop : d.operating = true) (htrip : (d.heads.get p).hardTrip = true)
    (hrest : d.mot.travel = .rest) (he : e = d.onHead p fun h => { h with rawTh := c }) :
    hardRecheck p c d = if e.tempOf p c ≤ e.hardLimit p - 80
      then ((e.onHead p fun h => { h with hardTrip := false }).unkill [p] cHeadOvertempHard).endCond cHeadOvertempHard p.val
      else e := by
  subst he
  refine if_neg ?_
  rw [hop, htrip, hrest]
  exact Bool.false_ne_true

/-- A reading of the low supply starts the count again, counts on, or ends the condition. -/
theorem vhRecheck_eq {c : Adc} {n : Nat} {e : Dev} (hop : d.operating = true) (hlow : (d.heads.get p).vhLow = some n)
    (heval : d.vhEvaluated = true) (he : e = d.onHead p fun h => { h with rawVh := c }) :
    vhRecheck p c d = if vhOf c.toNat * 20 < e.vhMin p * 21 then e.onHead p fun h => { h with vhLow := some 0 }
      else if n + 1 < 20 then e.onHead p fun h => { h with vhLow := some (n + 1) }
      else (e.onHead p fun h => { h with vhLow := none }).endCond cVhLow p.val := by
  subst he
  simp only [vhRecheck, hlow, hop, heval, Bool.not_true, Bool.or_self, Bool.false_eq_true, if_false]

end Monitors

/-- Settles O38: one lemma per monitor and per recheck. -/
theorem headMonitorsAnswer : Obligations.HeadMonitorsAnswer := by
  refine ⟨fun s p => ⟨fun g hop => ?_, fun g hpers => ?_, fun halive hon hnew => ?_, fun c halive hon hnew => ?_,
    fun high ns e halive hon hns hopen he => ?_, fun high halive hpin hshut => ?_⟩,
    fun s p c hop => ⟨fun e htrip hrest he => ?_, fun n e hlow heval he => ?low⟩⟩
  · exact exec_of_effect (strobeGuard_eq g hop)
  · exact ⟨s.dev.stuckRise p g, _, rfl, rfl, rfl, rfl, rfl, rfl, exec_of_effect (strobeStuck_eq g hpers)⟩
  · exact exec_of_effect (overtempHard_eq halive hon hnew)
  · exact exec_of_effect (vhHigh_eq halive hon c hnew)
  · exact exec_of_effect (headOpen_eq halive hon hns hopen he)
  · exact exec_of_effect (headOpenClear_eq halive hpin hshut)
  · exact exec_of_effect (hardRecheck_eq hop htrip hrest he)
  case low =>
    have h := vhRecheck_eq hop hlow heval he
    refine ⟨fun hbelow => ?_, fun habove hfew => ?_, fun habove hmany => ?_⟩
    · exact exec_of_effect (h.trans (if_pos hbelow))
    · exact exec_of_effect (h.trans ((if_neg (Nat.not_lt.mpr habove)).trans (if_pos hfew)))
    · exact exec_of_effect (h.trans ((if_neg (Nat.not_lt.mpr habove)).trans (if_neg (by omega))))

/-! ## A tasting run -/

theorem Quad.not_all_isEmpty {α : Type} {q : Quad (List α)} (h : ∃ p, q.get p ≠ []) : ¬ (q.toList.all (·.isEmpty)) = true := by
  obtain ⟨p, hp⟩ := h
  intro hall
  simp only [Quad.toList, List.all_cons, List.all_nil, Bool.and_true, Bool.and_eq_true, List.isEmpty_iff] at hall
  obtain ⟨ha, hb, hc, hd⟩ := hall
  match p with
  | 0 => exact hp ha
  | 1 => exact hp hb
  | 2 => exact hp hc
  | 3 => exact hp hd

theorem Dev.taste_outOfRange {d : Dev} {u : Taste} {sums : Quad (BitVec 16)}
    (hbad : ∃ p ∈ d.tastePorts u, openOk (sums.get p) = false) : ((d.tastePorts u).any fun p => !openOk (sums.get p)) = true := by
  obtain ⟨p, hp, hout⟩ := hbad
  exact List.any_eq_true.mpr ⟨p, hp, by rw [hout]; rfl⟩

section Taste

variable {d : Dev} {t u : Taste} (hop : d.operating = true) (ht : d.taste = some t)
include hop ht

section Setup

variable {sums : Quad (BitVec 16)} (hstage : t.stage = 0) (hpast : d.past t.stageTs (2 * ms) = true)
  (hu : u = { t with open16 := sums.mapIdx fun _ v => v.toNat })
include hstage hpast hu

theorem tasteSetup_eq : tasteSetup sums d =
    if (d.tastePorts u).any fun p => !openOk (sums.get p) then
      if t.found.toList.all (·.isEmpty) then d.closeTaste u { res := .refused, code := cTasteSource }
      else (d.tasteRelease u).completeTaste u { res := .abandoned, code := cTasteSource }
    else if t.yielding then d.tasteRelease u else d.tasteDot u := by
  have taken : ¬ (!d.operating || decide (t.stage ≠ 0) || !d.past t.stageTs (2 * ms)) = true := by
    rw [hop, decide_eq_false (not_not_intro hstage), hpast]
    exact Bool.false_ne_true
  subst hu
  unfold tasteSetup
  rw [ht]
  exact if_neg taken

theorem tasteSetup_good (hgood : ∀ p ∈ d.tastePorts u, openOk (sums.get p) = true) :
    tasteSetup sums d = if t.yielding then d.tasteRelease u else d.tasteDot u := by
  rw [tasteSetup_eq hop ht hstage hpast hu, if_neg]
  rw [Bool.not_eq_true, List.any_eq_false]
  exact fun p hp => by rw [hgood p hp]; exact Bool.false_ne_true

variable (hbad : ∃ p ∈ d.tastePorts u, openOk (sums.get p) = false)
include hbad

theorem tasteSetup_refused (hnone : t.found = Quad.all []) :
    tasteSetup sums d = d.closeTaste u { res := .refused, code := cTasteSource } := by
  rw [tasteSetup_eq hop ht hstage hpast hu, if_pos (Dev.taste_outOfRange hbad), if_pos (by rw [hnone]; rfl)]

theorem tasteSetup_abandoned (hfound : ∃ p, t.found.get p ≠ []) :
    tasteSetup sums d = (d.tasteRelease u).completeTaste u { res := .abandoned, code := cTasteSource } := by
  rw [tasteSetup_eq hop ht hstage hpast hu, if_pos (Dev.taste_outOfRange hbad),
    if_neg (Quad.not_all_isEmpty hfound)]

end Setup

/-- The dot behind the last one of the run. -/
def Dev.tasteStop (d : Dev) (seq : W32) : Nat := match d.adm seq with | some a => tFirst a.raw + tCount a.raw | none => 0

/-- The open readings that come with a dot's reading are in force from then on. -/
def Taste.reopened (t : Taste) (reopen : Option (Quad (BitVec 16))) : Taste :=
  match reopen with | some o => { t with open16 := o.mapIdx fun _ v => v.toNat } | none => t

/-- A dot's reading is taken in its dwell: 400 µs, or 800 µs with the open reading that every 64th dot takes. -/
theorem tasteDotDone_eq {sums : Quad (BitVec 16)} {reopen : Option (Quad (BitVec 16))} {x : Dev × Taste} (hstage : t.stage = 1)
    (hpast : d.past t.stageTs (if decide (t.dot % 64 = 0) then 800 * us else 400 * us) = true)
    (hblock : decide (t.dot % 64 = 0) = reopen.isSome)
    (hgood : ∀ o, reopen = some o → ∀ p ∈ d.tastePorts (t.reopened reopen), openOk (o.get p) = true)
    (hx : x = (d.tastePorts (t.reopened reopen)).foldl
      (fun (x : Dev × Taste) (p : Fin 4) => x.1.readDot x.2 p (sums.get p).toNat) (d, t.reopened reopen)) :
    tasteDotDone sums reopen d =
      if x.1.tasteStop x.2.seq ≤ x.2.dot + 1 then (x.1.tasteRelease { x.2 with dot := x.2.dot + 1 }).completeTaste { x.2 with dot := x.2.dot + 1 } {}
      else if x.2.yielding = true then x.1.tasteRelease { x.2 with dot := x.2.dot + 1 }
      else x.1.tasteDot { x.2 with dot := x.2.dot + 1 } := by
  have taken : ¬ (!d.operating || decide (t.stage ≠ 1) ||
      !d.past t.stageTs (if decide (t.dot % 64 = 0) then 800 * us else 400 * us) || decide (t.dot % 64 = 0) != reopen.isSome) = true := by
    rw [hop, decide_eq_false (not_not_intro hstage), hpast, hblock, bne_self_eq_false]
    exact Bool.false_ne_true
  subst hx
  unfold tasteDotDone
  rw [ht]
  refine (if_neg taken).trans (if_neg ?_)
  cases reopen with
  | none => exact Bool.false_ne_true
  | some o =>
    dsimp only
    rw [Bool.not_eq_true, List.any_eq_false]
    exact fun p hp => by rw [hgood o rfl p hp]; exact Bool.false_ne_true

theorem tasteReleaseDone_eq (hstage : t.stage = 2) (hpast : d.past t.stageTs (2 * ms) = true) :
    tasteReleaseDone d = { d with
      taste := if t.ended then none else some { t with stage := 3, yielding := false, stageTs := d.clk.now } } := by
  have taken : ¬ (!d.operating || decide (t.stage ≠ 2) || !d.past t.stageTs (2 * ms)) = true := by
    rw [hop, decide_eq_false (not_not_intro hstage), hpast]
    exact Bool.false_ne_true
  unfold tasteReleaseDone
  rw [ht]
  refine (if_neg taken).trans ?_
  cases t.ended <;> rfl

end Taste

/-- Settles O39: set-up, dots and release. -/
theorem tastingAnswers : Obligations.TastingAnswers := by
  intro s t hop ht
  refine ⟨fun sums u hstage hpast hu => ⟨fun hgood => ?_, fun hbad hnone => ?_, fun hbad hfound => ?_⟩,
    fun sums reopen u x stop hstage hdwell hx hstop => ?dot, fun hstage hpast => ?_⟩
  · exact exec_of_effect (tasteSetup_good hop ht hstage hpast hu hgood)
  · exact exec_of_effect (tasteSetup_refused hop ht hstage hpast hu hbad hnone)
  · exact exec_of_effect (tasteSetup_abandoned hop ht hstage hpast hu hbad hfound)
  case dot =>
    have hstop : stop = x.1.tasteStop x.2.seq := hstop
    subst hstop
    rcases hdwell with ⟨hdot, rfl, rfl, hpast⟩ | ⟨hdot, ⟨o, rfl, rfl, hgood⟩, hpast⟩
    · refine exec_of_effect (tasteDotDone_eq (reopen := none) hop ht hstage ?_ (decide_eq_false hdot) nofun hx)
      rw [decide_eq_false hdot]
      exact hpast
    · refine exec_of_effect (tasteDotDone_eq (reopen := some o) hop ht hstage ?_ (decide_eq_true hdot)
        (fun o' ho => Option.some.inj ho ▸ hgood) hx)
      rw [decide_eq_true hdot]
      exact hpast
  · exact exec_of_effect (tasteReleaseDone_eq hop ht hstage hpast)

end Sys2Proof.Machine
end


section
/-! Encoders, motor steps, the events of the axes, the choppers, and the media coming to rest (R301 to R371, R388). -/

namespace Sys2Proof.Machine

/-! ## Encoders and motor steps -/

section Steps

variable {d : Dev}

theorem tickStalled_eq {t : Ts} (hop : d.operating = true) (hsource : d.tickSource = 1) (hdue : d.mot.tickDue = none)
    (hawait : d.awaited = some t) (hlate : atOrAfter d.clk.now (t + BitVec.ofNat 48 (100 * ms)) = true) :
    tickStalled d = d.raise { code := cTickStalled, sev := some .pause, lvl := .device, job := d.bandJob } := by
  refine if_neg ?_
  rw [hop, decide_eq_false (not_not_intro hsource), hdue, hawait, Option.map_some, Option.getD_some, hlate]
  exact Bool.false_ne_true

/-- A step before the 2 ms after energising have passed is not taken. -/
theorem motorStep_early {x : Fin 4} {t : Ts} (ht : (d.axes.get x).readyTs = some t) (hearly : atOrAfter d.clk.now t = false) :
    motorStep x d = d := by
  unfold motorStep
  simp only [ht, Option.map_some, Option.getD_some, hearly, Bool.not_false, if_true, ite_self]

/-- Nothing holds a step back for the 2 ms after energising. -/
theorem Axis.not_early {a : Axis} {now : Ts} (h : ∀ t, a.readyTs = some t → atOrAfter now t = true) :
    ¬ ((a.readyTs.map fun t => !atOrAfter now t).getD false) = true := by
  cases ht : a.readyTs with
  | none => exact Bool.false_ne_true
  | some t =>
    rw [Option.map_some, Option.getD_some, h t ht]
    exact Bool.false_ne_true

section Ready

variable {x : Fin 4} (hop : d.operating = true)
  (hready : ∀ t, (d.axes.get x).readyTs = some t → atOrAfter d.clk.now t = true)
include hop hready

theorem motorStep_ax0 {g : Seg} {rest : List Seg} (hx : x = 0) (hsegs : d.axes.a.segs = g :: rest) :
    motorStep x d = if d.tickSource ≠ 1 && (d.line.band.map fun b => b.fromRest).getD false || !d.stepDue d.axes.a g then d
      else d.step0 g := by
  subst hx
  refine (if_neg (by rw [hop]; exact Bool.false_ne_true)).trans ((if_neg (Axis.not_early hready)).trans ?_)
  change (match d.axes.a.segs with | [] => d | _ :: _ => _) = _
  rw [hsegs]
  rfl

theorem motorStep_ax3 {g : Seg} {rest : List Seg} (hx : x = 3) (hsegs : d.axes.d.segs = g :: rest) :
    motorStep x d = if d.stepDue d.axes.d g then d.step3 g else d := by
  subst hx
  refine (if_neg (by rw [hop]; exact Bool.false_ne_true)).trans ((if_neg (Axis.not_early hready)).trans ?_)
  change (match d.axes.d.segs with | [] => d | _ :: _ => _) = _
  rw [hsegs]
  rfl

theorem motorStep_ax0_nil (hx : x = 0) (hsegs : d.axes.a.segs = []) : motorStep x d = d := by
  subst hx
  refine (if_neg (by rw [hop]; exact Bool.false_ne_true)).trans ((if_neg (Axis.not_early hready)).trans ?_)
  change (match d.axes.a.segs with | [] => d | _ :: _ => _) = _
  rw [hsegs]

theorem motorStep_ribbon (hx : x = 1 ∨ x = 2) :
    motorStep x d = if !(d.axes.get x).energised || !engaged (d.axes.get x).entry || d.ribbonGoal x = (d.axes.get x).pos then d
      else d.microstep x (decide ((d.axes.get x).pos < d.ribbonGoal x)) := by
  refine (if_neg (by rw [hop]; exact Bool.false_ne_true)).trans ((if_neg (Axis.not_early hready)).trans ?_)
  rcases hx with rfl | rfl <;> rfl

end Ready

/-- AX0 waits while a line from rest waits for its tick under step or timer ticks. -/
theorem motorStep_waits {b : BandRt} (hop : d.operating = true) (hb : d.line.band = some b) (hrest : b.fromRest = true)
    (hsource : d.tickSource ≠ 1) : motorStep 0 d = d := by
  by_cases hready : ∀ t, (d.axes.get 0).readyTs = some t → atOrAfter d.clk.now t = true
  · cases hsegs : d.axes.a.segs with
    | nil => exact motorStep_ax0_nil hop hready rfl hsegs
    | cons g rest =>
      rw [motorStep_ax0 hop hready rfl hsegs, if_pos]
      simp only [hb, Option.map_some, Option.getD_some, hrest, decide_eq_true hsource, Bool.and_self, Bool.true_or]
  · obtain ⟨t, ht⟩ := Classical.not_forall.mp hready
    obtain ⟨hts, hearly⟩ := Classical.not_imp.mp ht
    exact motorStep_early hts ((Bool.not_eq_true _).mp hearly)

end Steps

/-- Settles O40: the encoders, the stalled tick, and a step of each kind of axis. -/
theorem encodersAndStepsAnswer : Obligations.EncodersAndStepsAnswer := by
  refine ⟨fun s hop => ⟨fun up hsec => ⟨?_, ?_⟩, fun t hsource hdue hwho hlate => ?stalled⟩, fun s hop =>
    ⟨fun x t ht hearly => ?_, fun b hb hrest hsource => ?_, fun g rest e hready hsegs => ⟨fun hdue => ?_, fun hdue hgo he => ?ax0⟩,
      fun g rest e hready hsegs hdue he => ⟨fun hmore => ?_, fun hlast => ?_⟩, fun x hx hready hon heng hgoal => ?ribbon⟩⟩
  · exact exec_of_effect (if_neg (by rw [hop, hsec]; exact Bool.false_ne_true))
  · exact exec_of_effect (if_neg (by rw [hop, hsec]; exact Bool.false_ne_true))
  case stalled =>
    have hawait : s.dev.awaited = some t := by
      rcases hwho with ⟨b, hb, hphase, hmoves, rfl⟩ | ⟨hb, hfwd, hhead⟩
      · simp [Dev.awaited, hb, hphase, hmoves]
      · simp only [Dev.awaited, hb, hfwd, if_true, hhead]
    exact exec_of_effect (tickStalled_eq hop hsource hdue hawait hlate)
  · exact exec_of_effect (motorStep_early ht hearly)
  · exact exec_of_effect (motorStep_waits hop hb hrest hsource)
  · have early : s.dev.stepDue s.dev.axes.a g = false := hdue
    refine exec_of_effect ((motorStep_ax0 (x := 0) hop hready rfl hsegs).trans (if_pos ?_))
    rw [early, Bool.not_false, Bool.or_true]
  case ax0 =>
    have due : s.dev.stepDue s.dev.axes.a g = true := hdue
    have goes : (decide (s.dev.tickSource ≠ 1) && (s.dev.line.band.map fun b => b.fromRest).getD false) = false := by
      rcases hgo with hrest | hsource
      · cases hb : s.dev.line.band with
        | none => exact Bool.and_false _
        | some b => rw [Option.map_some, Option.getD_some, hrest b hb, Bool.and_false]
      · rw [decide_eq_false (not_not_intro hsource), Bool.false_and]
    subst he
    refine exec_of_effect ((motorStep_ax0 (x := 0) hop hready rfl hsegs).trans (if_neg ?_))
    rw [due, goes]
    exact Bool.false_ne_true
  · subst he
    refine exec_of_effect (((motorStep_ax3 (x := 3) hop hready rfl hsegs).trans (if_pos hdue)).trans (if_neg ?_))
    rw [List.isEmpty_iff]
    exact hmore
  · subst he
    exact exec_of_effect (((motorStep_ax3 (x := 3) hop hready rfl hsegs).trans (if_pos hdue)).trans (if_pos (List.isEmpty_iff.mpr hlast)))
  case ribbon =>
    have goal : s.dev.ribbonGoal x ≠ (s.dev.axes.get x).pos := hgoal
    refine exec_of_effect ((motorStep_ribbon hop hready hx).trans (if_neg ?_))
    rw [hon, heng, decide_eq_false goal]
    exact Bool.false_ne_true

/-! ## Events of the axes -/

section Axes

variable {d : Dev}

theorem axisRelease_eq {x : Fin 4} {a : Axis} (hop : d.operating = true) (ha : a = d.axes.get x) (hon : a.energised = true)
    (hstill : a.moving = false) (hsegs : a.segs = []) (htime : eRelease a.entry ≠ 65535)
    (hpast : d.past a.restTs (eRelease a.entry * ms) = true) (hheld : x = 3 ∨ d.groupHeld = false) :
    axisRelease x d = d.onAxis x fun a =>
      { a with energised := false, released := true, a := { a.a with on := false }, b := { a.b with on := false } } := by
  have free : (decide (x ≠ 3) && d.groupHeld) = false := by
    rcases hheld with rfl | h
    · rfl
    · rw [h, Bool.and_false]
  subst ha
  refine if_neg ?_
  rw [hop, hon, hstill, hsegs, decide_eq_false htime, hpast, free]
  exact Bool.false_ne_true

theorem axisOvercurrent_eq {x : Fin 4} {b : Bool} {mv : BitVec 16} {e : Dev} (halive : d.alive = true)
    (hheld : (d.axes.get x).held = false) (hjust : d.justOn x b = false)
    (he : e = ((d.onAxis x fun a => { a with held := true, a := { a.a with on := false }, b := { a.b with on := false } }).shadow
      .gates none (some (500 * ms)))) :
    axisOvercurrent x b mv d = e.raise
      { code := cAxisOvercurrent, sub := x.val, sev := some .stopDevice, lvl := .device, job := e.bandJob
        detail := e.motionDetail x.val (b2n b) mv.toNat (e.motorVfs * 3 / 2) e.nextLineTick } := by
  subst he
  refine if_neg ?_
  rw [halive, hheld, hjust]
  exact Bool.false_ne_true

theorem Dev.alive_of_operating (hop : d.operating = true) : d.alive = true := by
  simp only [Dev.operating, Bool.and_eq_true] at hop
  exact Bool.and_eq_true_iff.mpr hop.1

theorem dcBrakeEnd_eq (hop : d.operating = true) (hbrake : d.mot.auxBrake = true) (hpast : d.past d.axes.d.restTs (20 * ms) = true) :
    dcBrakeEnd d = (Dev.auxArrived { d with mot := { d.mot with auxBrake := false, auxTarget := none } }).afterCut d :=
  if_neg (by rw [hop, hbrake, hpast]; exact Bool.false_ne_true)

/-- Fewer counts in the past 50 ms of drive than the limit are a jam. -/
theorem dcJamCheck_eq {n : Nat} (hop : d.operating = true) (hdc : d.auxDc = true) (htarget : d.mot.auxTarget ≠ none)
    (hbrake : d.mot.auxBrake = false) (hpast : d.past d.mot.auxTs (50 * ms) = true)
    (hn : n = (d.mot.auxCounts.filter fun t => !d.past t (50 * ms)).length) :
    dcJamCheck d = if !eJamOn d.axes.d.entry || eJam d.axes.d.entry * 16 ≤ n then d
      else Dev.raise { d with mot := { d.mot with auxTs := d.clk.now } }
        { code := cAxisJam, sub := 3, sev := some .pause, lvl := .device, job := d.bandJob
          detail := d.motionDetail 3 0xFF ((n : Int) - (eJam d.axes.d.entry * 16 : Nat)) (eJam d.axes.d.entry * 16) d.nextLineTick } := by
  subst hn
  refine if_neg ?_
  rw [hop, hdc, Option.isNone_eq_false_iff.mpr (Option.isSome_iff_ne_none.mpr htarget), hbrake, hpast]
  exact Bool.false_ne_true

end Axes

/-! ## Choppers -/

section Winding

variable {d : Dev} {x : Fin 4} {b : Bool} {len : Nat}

/-- The winding is chopped: its axis energised and not held, no B winding of a DC axis, no brake on AX3. -/
theorem windingPhase_chops (hop : d.operating = true) (hon : (d.axes.get x).energised = true) (hheld : (d.axes.get x).held = false)
    (hdc : b = true → d.pers.axisCfg.get x ≠ 2) (hbrake : x = 3 → d.mot.auxBrake = false) :
    windingPhase x b len d = if ((d.axes.get x).wind b).on then onPhaseEnd x b len d else offPhaseEnd x b len d := by
  have stepper : (b && d.dcAxis x) = false := by
    cases b with
    | false => rfl
    | true => exact beq_false_of_ne (hdc rfl)
  have free : (x == 3 && d.mot.auxBrake) = false := by
    by_cases hx : x = 3
    · rw [hbrake hx, Bool.and_false]
    · rw [beq_false_of_ne hx, Bool.false_and]
  refine if_neg ?_
  rw [hop, hon, hheld, stepper, free]
  exact Bool.false_ne_true

/-- A phase that is too short ends nothing. -/
theorem windingPhase_short {w : Winding} (hw : w = (d.axes.get x).wind b)
    (h : (w.on = false ∧ len < w.off) ∨ (w.on = true ∧ len < 50 * (bits (eDrive (d.axes.get x).entry) 1 0 + 1))) :
    (if ((d.axes.get x).wind b).on then onPhaseEnd x b len d else offPhaseEnd x b len d) = d := by
  subst hw
  rcases h with ⟨hoff, hlen⟩ | ⟨hon, hlen⟩
  · rw [hoff]
    exact (if_neg Bool.false_ne_true).trans (if_pos hlen)
  · rw [hon]
    exact (if_pos rfl).trans (if_pos hlen)

/-- What is not chopped ends no phase. -/
theorem windingPhase_idle (h : (b = true ∧ d.pers.axisCfg.get x = 2) ∨ (x = 3 ∧ d.mot.auxBrake = true)) :
    windingPhase x b len d = d := by
  refine if_pos ?_
  rcases h with ⟨rfl, hdc⟩ | ⟨rfl, hbrake⟩
  · have hdc : d.dcAxis x = true := beq_iff_eq.mpr hdc
    rw [hdc, Bool.and_self, Bool.or_true, Bool.true_or]
  · rw [hbrake, beq_self_eq_true, Bool.and_self, Bool.or_true]

theorem windingPhase_rests {w : Winding} (hop : d.operating = true) (hon : (d.axes.get x).energised = true)
    (hheld : (d.axes.get x).held = false) (hw : w = (d.axes.get x).wind b)
    (h : (b = true ∧ d.pers.axisCfg.get x = 2) ∨ (x = 3 ∧ d.mot.auxBrake = true) ∨ (w.on = false ∧ len < w.off) ∨
      (w.on = true ∧ len < 50 * (bits (eDrive (d.axes.get x).entry) 1 0 + 1))) : windingPhase x b len d = d := by
  by_cases idle : (b = true ∧ d.pers.axisCfg.get x = 2) ∨ (x = 3 ∧ d.mot.auxBrake = true)
  · exact windingPhase_idle idle
  · obtain ⟨hdc, hbrake⟩ := not_or.mp idle
    have short : (w.on = false ∧ len < w.off) ∨ (w.on = true ∧ len < 50 * (bits (eDrive (d.axes.get x).entry) 1 0 + 1)) := by
      rcases h with h | h | h
      · exact absurd h hdc
      · exact absurd h hbrake
      · exact h
    rw [windingPhase_chops hop hon hheld (fun hb h2 => hdc ⟨hb, h2⟩)
      (fun hx => (Bool.not_eq_true _).mp fun hb => hbrake ⟨hx, hb⟩), windingPhase_short hw short]

/-- An off phase that has lasted its time: the winding goes on, in the direction of its target. -/
theorem offPhaseEnd_eq {e : Dev} (hlen : ((d.axes.get x).wind b).off ≤ len) (he : e = d.windShare x b len) :
    offPhaseEnd x b len d = e.onAxis x fun a => a.setWind b { a.wind b with
      on := decide (a.code d.motorVfs (d.pers.axisCfg.get x == 2) b ≠ 0)
      dir := decide (0 ≤ a.target (d.pers.axisCfg.get x == 2) b), off := 0, fast := 0, phaseTs := d.clk.now } := by
  subst he
  exact if_neg (Nat.not_lt.mpr hlen)

/-- An on phase that has outlasted its blanking: the next off phase by the axis' shift register, and WINDING_OPEN at the sixteenth
full phase in a row. -/
theorem onPhaseEnd_eq {n off : Nat} {e f : Dev} (hlen : 50 * (bits (eDrive (d.axes.get x).entry) 1 0 + 1) ≤ len)
    (he : e = (d.windShare x b (min len 20000)).stepShare x b (min len 20000))
    (hn : n = (if 20000 ≤ len ∧ 125 ≤ e.windCode x b ∧ ((e.axes.get x).moving = false ∨ e.speedNow x * 4 < e.topSpeed x)
      then ((e.axes.get x).wind b).limits + 1 else 0))
    (hoff : off = e.offTime e.motorToff (lfsrNext (e.axes.get x).lfsr))
    (hf : f = (e.onAxis x fun a => { a.setWind b { a.wind b with
          on := false
          dir := if a.target (e.pers.axisCfg.get x == 2) b = 0 then (a.wind b).dir else decide (0 ≤ a.target (e.pers.axisCfg.get x == 2) b)
          off := off, fast := [0, off / 8, off / 4, off / 2].getD (bits (eDrive (e.axes.get x).entry) 3 2) 0
          phaseTs := e.clk.now, limits := if 16 ≤ n then 0 else n } with lfsr := lfsrNext (e.axes.get x).lfsr })) :
    onPhaseEnd x b len d = if 16 ≤ n then f.raise
        { code := cWindingOpen, sub := x.val, sev := some .stopDevice, lvl := .device, job := f.bandJob
          detail := f.motionDetail x.val (b2n b) (e.windCode x b) 125 f.nextLineTick }
      else f := by
  have count : (if decide (20000 ≤ min len 20000) && decide (125 ≤ e.windCode x b) &&
      (!(e.axes.get x).moving || decide (e.speedNow x * 4 < e.topSpeed x)) then ((e.axes.get x).wind b).limits + 1 else 0) = n := by
    rw [hn]
    refine ite_congr (propext ?_) (fun _ => rfl) fun _ => rfl
    simp only [Bool.and_eq_true, Bool.or_eq_true, decide_eq_true_eq, Bool.not_eq_true', and_assoc, Nat.le_min, Nat.le_refl, and_true]
  refine (if_neg (Nat.not_lt.mpr hlen)).trans ?_
  dsimp only
  rw [← he, count]
  subst hoff hf
  by_cases h : 16 ≤ n
  · simp only [h, decide_true, Bool.not_true, Bool.false_eq_true, if_false, if_true]
    rfl
  · simp only [h, decide_false, Bool.not_false, if_true, Bool.false_eq_true, if_false]
    rfl

end Winding

theorem coilPhase_eq {d : Dev} {c : Fin 8} {r : SolRun} {len : Nat} (hop : d.operating = true) (hr : d.runOn c = some r)
    (hch : r.ch = c) (hpulse : (d.sol.get c).pulsing = true) :
    coilPhase c len d = if len < (if (d.sol.get c).gate then 100 else (d.sol.get c).off) then d
      else if (d.sol.get c).gate then (d.coilShare c r len).coilOff r len
      else (d.coilShare c r len).each8 r.chans fun k d => d.gate k true := by
  unfold coilPhase
  rw [hr]
  refine if_neg ?_
  rw [hop, decide_eq_false (not_not_intro hch), hpulse]
  exact Bool.false_ne_true

/-- Settles O43: the events of the axes, then the phases of a winding and of a coil. -/
theorem axisEventsAnswer : Obligations.AxisEventsAnswer := by
  refine ⟨fun s hop => ⟨fun x a ha hon hstill hsegs htime hpast hheld => ?_, fun x b mv e hheld hjust he => ?_,
      fun hbrake hpast => ?_, fun n hdc htarget hbrake hpast hn => ?jam⟩,
    fun s len hop => ⟨fun x b w hon hheld hw => ⟨fun hrest => ?_, fun hdc hbrake => ?chops⟩, fun c r hr hch hpulse => ?coil⟩⟩
  · exact exec_of_effect (axisRelease_eq hop ha hon hstill hsegs htime hpast hheld)
  · exact exec_of_effect (axisOvercurrent_eq (Dev.alive_of_operating hop) hheld hjust he)
  · exact exec_of_effect (dcBrakeEnd_eq hop hbrake hpast)
  case jam =>
    have h := dcJamCheck_eq hop hdc htarget hbrake hpast hn
    refine ⟨fun hok => exec_of_effect (h.trans (if_pos ?_)), fun hjamOn hfew => exec_of_effect (h.trans (if_neg ?_))⟩
    · rcases hok with hoff | hmany
      · rw [hoff, Bool.not_false, Bool.true_or]
      · rw [decide_eq_true hmany, Bool.or_true]
    · rw [hjamOn, decide_eq_false (Nat.not_le.mpr hfew)]
      exact Bool.false_ne_true
  · exact exec_of_effect (windingPhase_rests hop hon hheld hw hrest)
  case chops =>
    have h : effect (.chopperPhaseEnd (.winding x b) len) s.dev = _ := windingPhase_chops hop hon hheld hdc hbrake
    refine ⟨fun e hoff hlen he => ?_, fun n off e f hwon hlen he hn hoff hf => ?_⟩
    · rw [← hw, hoff, if_neg Bool.false_ne_true] at h
      exact exec_of_effect (h.trans (offPhaseEnd_eq (hw ▸ hlen) he))
    · rw [← hw, hwon, if_pos rfl] at h
      have hend := h.trans (onPhaseEnd_eq hlen he hn hoff hf)
      exact ⟨fun hfew => exec_of_effect (hend.trans (if_neg (Nat.not_le.mpr hfew))),
        fun hmany => exec_of_effect (hend.trans (if_pos hmany))⟩
  case coil =>
    have h : effect (.chopperPhaseEnd (.coil c) len) s.dev = _ := coilPhase_eq hop hr hch hpulse
    refine ⟨fun hshort => ?_, fun hgate hlen => ?_, fun hgate hlen => ?_⟩
    · exact exec_of_effect (h.trans (if_pos hshort))
    · rw [hgate, if_pos rfl, if_neg (Nat.not_lt.mpr hlen), if_pos rfl] at h
      exact exec_of_effect h
    · rw [hgate, if_neg Bool.false_ne_true, if_neg (Nat.not_lt.mpr hlen), if_neg Bool.false_ne_true] at h
      exact exec_of_effect h

/-! ## The media comes to rest -/

section Rest

variable {d : Dev} (hop : d.operating = true) (htravel : d.mot.travel ≠ .rest) (hsegs : d.axes.a.segs = [])
  (hper : d.mot.per = 0) (hdue : d.mot.tickDue = none)
include hop htravel hsegs hper hdue

/-- The media has reached the end of its deceleration and no tick is outstanding. -/
theorem mediaRest_taken :
    (!d.operating || d.mot.travel == .rest || !d.axes.a.segs.isEmpty || decide (d.mot.per ≠ 0) || d.mot.tickDue.isSome) = false := by
  rw [hop, beq_false_of_ne htravel, hsegs, decide_eq_false (not_not_intro hper), hdue]
  rfl

theorem mediaRest_overran {t : Int} (hstop : d.mot.travel = .stopping) (hover : d.mot.superseded = some t) :
    mediaRest d = (Dev.setMark { d with mot := { d.mot with overshoot := (d.axOf d.mot.bound - d.axOf t).natAbs } }).startReturn t := by
  have taken := mediaRest_taken hop htravel hsegs hper hdue
  have away : (if d.mot.travel == .stopping then d.mot.superseded else none) = some t := (if_pos (by rw [hstop]; rfl)).trans hover
  simp only [mediaRest, taken, Bool.false_eq_true, if_false, away]

theorem mediaRest_returns {t : Int} (hstop : d.mot.travel = .stopping) (hover : d.mot.superseded = none)
    (hback : d.mot.returnTo = some t) :
    mediaRest d = if t ≠ d.mot.bound then d.setMark.startReturn t else d.restGroup.bandRests.moverRests.closeQuiet := by
  have taken := mediaRest_taken hop htravel hsegs hper hdue
  have away : (if d.mot.travel == .stopping then d.mot.superseded else none) = none := by rw [hover, ite_self]
  have back : (if d.mot.travel == .stopping then d.mot.returnTo else none) = some t := (if_pos (by rw [hstop]; rfl)).trans hback
  simp only [mediaRest, taken, Bool.false_eq_true, if_false, away, back]

theorem mediaRest_rests {e : Dev} (hend : d.mot.travel ≠ .stopping ∨ (d.mot.superseded = none ∧ d.mot.returnTo = none))
    (he : e = d.restGroup.bandRests.moverRests.closeQuiet) :
    mediaRest d = if e.mover.isNone && (e.line.band.map fun (b : BandRt) => decide (b.lines ≤ b.next)).getD true
      then e.compensateAll else e := by
  have taken := mediaRest_taken hop htravel hsegs hper hdue
  have nowhere : (if d.mot.travel == .stopping then d.mot.superseded else none) = none ∧
      (if d.mot.travel == .stopping then d.mot.returnTo else none) = none := by
    rcases hend with h | ⟨hover, hback⟩
    · rw [beq_false_of_ne h]
      exact ⟨rfl, rfl⟩
    · rw [hover, hback, ite_self]
      exact ⟨rfl, rfl⟩
  subst he
  simp only [mediaRest, taken, Bool.false_eq_true, if_false, nowhere.1, nowhere.2]

end Rest

/-- Settles O44: the way back to a target overrun, to a boundary named, and rest. -/
theorem mediaRestAnswers : Obligations.MediaRestAnswers := by
  intro s hop htravel hsegs hper hdue
  refine ⟨fun t hstop hover => ?_, fun t hstop hover hback => ?back, fun e hend he => ?rest⟩
  · exact exec_of_effect (mediaRest_overran hop htravel hsegs hper hdue hstop hover)
  case back =>
    have h := mediaRest_returns hop htravel hsegs hper hdue hstop hover hback
    exact ⟨fun hne => exec_of_effect (h.trans (if_pos hne)), fun heq => exec_of_effect (h.trans (if_neg (not_not_intro heq)))⟩
  case rest =>
    have h := mediaRest_rests hop htravel hsegs hper hdue hend he
    refine ⟨fun ⟨hmover, hband⟩ => exec_of_effect (h.trans (if_pos ?_)), fun hmore => exec_of_effect (h.trans (if_neg ?_))⟩
    · cases hb : e.line.band with
      | none => rw [hmover]; rfl
      | some b => rw [hmover, Option.map_some, Option.getD_some, decide_eq_true (hband b hb)]; rfl
    · rcases hmore with hmover | ⟨b, hb, hlines⟩
      · rw [Option.isNone_eq_false_iff.mpr (Option.isSome_iff_ne_none.mpr hmover), Bool.false_and]
        exact Bool.false_ne_true
      · rw [hb, Option.map_some, Option.getD_some, decide_eq_false (Nat.not_le.mpr hlines), Bool.and_false]
        exact Bool.false_ne_true

end Sys2Proof.Machine
end


section
/-! Solenoid pulses from start to off, and the coils' samples, models and monitors (R413 to R439). -/

namespace Sys2Proof.Machine

/-! ## Pulses -/

/-- Whether a channel has been off for 100 µs, and for as long no sample of it was above its limit (R426). -/
def Dev.stillOff (d : Dev) (k : Fin 8) : Bool :=
  (d.sol.get k).phase == .released && d.past (d.sol.get k).relTs (100 * us) &&
    (match (d.sol.get k).belowTs with | some t => d.past t (100 * us) | none => true)

theorem Dev.stillOff_of {d : Dev} {k : Fin 8} (h : (d.sol.get k).phase = .released ∧ d.past (d.sol.get k).relTs (100 * us) = true ∧
    ∀ t, (d.sol.get k).belowTs = some t → d.past t (100 * us) = true) : d.stillOff k = true := by
  obtain ⟨hphase, hrel, hbelow⟩ := h
  rw [Dev.stillOff, hphase, hrel]
  cases hb : (d.sol.get k).belowTs with
  | none => rfl
  | some t => exact hbelow t hb

section Pulses

variable {d : Dev}

theorem pulseStart_eq {seq : W32} {r : SolRun} (hr : d.run seq = some r) (hawake : d.awake = true) (hmay : d.mayPulse r = true)
    (hcut : d.media.cut = none)
    (htime : r.begun = true ∨ r.deadline = none ∨
      ∃ t, r.deadline = some t ∧ (d.clk.now = t ∨ atOrAfter d.clk.now t = false)) :
    pulseStart seq d = (d.startPulse r).onRun seq fun r => { r with void := false } := by
  unfold pulseStart
  rw [hr]
  refine (if_neg ?_).trans ?_
  · simp only [hawake, hmay, Bool.not_true, Bool.false_or, Bool.or_false, Bool.and_eq_true, Bool.not_eq_true', not_and,
      Bool.not_eq_true]
    rcases htime with h | h | ⟨t, h, hnow | hbefore⟩
    · exact fun hno => absurd (h.symm.trans hno) nofun
    · intro _; rw [h]
    · intro _; simp only [h, hnow, bne_self_eq_false, Bool.false_and]
    · intro _; simp only [h, hbefore, Bool.and_false]
  · simp only [hcut]

theorem solenoidDeadline_eq {seq : W32} {r : SolRun} {t : Ts} (hr : d.run seq = some r) (hop : d.operating = true)
    (hbegun : r.begun = false) (hdeadline : r.deadline = some t) (hdue : atOrAfter d.clk.now t = true)
    (hcannot : d.clk.now ≠ t ∨ d.mayPulse r = false) :
    solenoidDeadline seq d = Dev.refuse { d with solx := { d.solx with runs := d.solx.runs.filter fun x => x.seq ≠ seq } } seq
      (if r.waitCode = 0 then cDeadlinePassed else r.waitCode) r.waitRef := by
  have cannot : (d.clk.now == t && d.mayPulse r) = false := by
    rcases hcannot with h | h
    · rw [beq_false_of_ne h, Bool.false_and]
    · rw [h, Bool.and_false]
  unfold solenoidDeadline
  simp only [hr, hdeadline]
  refine if_neg ?_
  rw [hop, hbegun, hdue, cannot]
  exact Bool.false_ne_true

section Run

variable {c : Fin 8} {r : SolRun} (hr : d.runOn c = some r) (hop : d.operating = true)
include hr hop

theorem peakEnd_eq {e : Dev} (hphase : (d.sol.get r.ch).phase = .peak)
    (hend : d.past (d.sol.get r.ch).phaseTs (r.peakMax * hundred) = true ∨
      ∃ t, (d.sol.get r.ch).seated = some t ∧ d.past t (1 * ms) = true ∧ atOrAfter d.clk.now (d.sol.get r.ch).seatSeen = true)
    (he : e = d.endPeak r) :
    peakEnd c d = if (e.sol.get r.ch).phase = .released then (e.cutReleased r.seq).afterCut e else e := by
  subst he
  unfold peakEnd
  rw [hr]
  refine (if_neg ?_).trans ?_
  · rw [hop, hphase]
    rcases hend with h | ⟨t, h, hpast, hseen⟩
    · rw [h, Bool.true_or]
      exact Bool.false_ne_true
    · simp only [h, hpast, hseen, Bool.and_self, Bool.or_true]
      exact Bool.false_ne_true
  · simp only [beq_iff_eq]

theorem holdEnd_eq (hphase : (d.sol.get r.ch).phase = .hold) (hpast : d.past (d.sol.get r.ch).phaseTs (r.holdTime * hundred) = true) :
    holdEnd c d = ((d.releaseRun r.ch).cutReleased r.seq).afterCut (d.releaseRun r.ch) := by
  unfold holdEnd
  rw [hr]
  refine if_neg ?_
  rw [hop, hphase, hpast]
  exact Bool.false_ne_true

/-- The pulse is counted, a void one apart, and the record ends with its stop, completes after its last pulse, or waits. -/
theorem channelOff_eq {e : Dev} {u : SolRun} (hcut : d.media.cut = none)
    (hstill : ∀ k ∈ r.chans, (d.sol.get k).phase = .released ∧ d.past (d.sol.get k).relTs (100 * us) = true ∧
      ∀ t, (d.sol.get k).belowTs = some t → d.past t (100 * us) = true)
    (hu : u = { r with done := r.done + (if r.void then 0 else 1), index := r.index + 1, void := false })
    (he : e = (d.onRun r.seq fun x => { x with done := u.done, index := x.index + 1, void := false })) :
    (∀ x, r.stop = some x → channelOff c d =
      e.endRun u { res := .abandoned, lvl := x.2.2, origin := e.originOf x.2.2, code := x.1, ref := x.2.1 }) ∧
    (r.stop = none → channelOff c d = if r.count ≤ u.index then e.endRun u { code := e.trimReason r.seq }
      else e.each8 r.chans fun c d => d.onSol c fun s => { s with phase := .idle }) := by
  have counted : r.done + b2n (!r.void) = r.done + (if r.void then 0 else 1) := by cases r.void <;> rfl
  have noCut : (d.media.cut.map fun c => c.seq == r.seq).getD false = false := by rw [hcut]; rfl
  have taken : ¬ (!d.operating || !(r.chans.all d.stillOff)) = true := by
    rw [hop, List.all_eq_true.mpr fun k hk => Dev.stillOff_of (hstill k hk)]
    exact Bool.false_ne_true
  subst hu he
  unfold channelOff
  rw [hr, ← counted]
  refine ⟨fun x hx => (if_neg taken).trans ?_, fun hstop => (if_neg taken).trans ?_⟩
  · simp only [hx, Dev.onRun_media, noCut, Bool.false_eq_true, if_false]
  · simp only [hstop, Dev.onRun_media, noCut, Bool.false_eq_true, if_false]
    rfl

end Run

end Pulses

/-- Settles O47: the start of a pulse and its deadline, the ends of its phases, and what follows its last sample. -/
theorem pulsesAnswer : Obligations.PulsesAnswer := by
  refine ⟨fun s seq r hr => ⟨fun hawake hmay hcut htime => ?_, fun t hop hbegun hdeadline hdue hcannot => ?_⟩,
    fun s c r hr hop => ⟨fun e hphase hend he => ?_, fun hphase hpast => ?_, fun e u hcut hstill hu he => ?off⟩⟩
  · exact exec_of_effect (pulseStart_eq hr hawake hmay hcut htime)
  · exact exec_of_effect (solenoidDeadline_eq hr hop hbegun hdeadline hdue hcannot)
  · exact exec_of_effect (peakEnd_eq hr hop hphase hend he)
  · exact exec_of_effect (holdEnd_eq hr hop hphase hpast)
  case off =>
    obtain ⟨stopped, goes⟩ := channelOff_eq hr hop hcut hstill hu he
    exact ⟨fun x hx => exec_of_effect (stopped x hx), fun hstop hlast => exec_of_effect ((goes hstop).trans (if_pos hlast)),
      fun hstop hmore => exec_of_effect ((goes hstop).trans (if_neg (Nat.not_le.mpr hmore)))⟩

/-! ## Coils -/

section OnShare

variable {d : Dev} {c : Fin 8}

/-- A channel's change depends on what the channel is alone. -/
theorem Dev.onSol_congr {f g : Sol → Sol} (h : f (d.sol.get c) = g (d.sol.get c)) : d.onSol c f = d.onSol c g := by
  rw [Dev.onSol, Dev.onSol, h]

theorem Oct.set_set {α : Type} (q : Oct α) (i : Fin 8) (v w : α) : (q.set i v).set i w = q.set i w := by
  match i with | 0 | 1 | 2 | 3 | 4 | 5 | 6 | 7 => rfl

theorem Dev.onSol_onSol (f g : Sol → Sol) : (d.onSol c f).onSol c g = d.onSol c fun s => g (f s) := by
  simp only [Dev.onSol, Oct.get_set_self, Oct.set_set]

variable {x : Sol} {on share top : Nat} (hawake : d.awake = true) (hx : x = d.sol.get c) (hphase : x.phase = .peak)
  (hreg : x.regulating = true) (hseated : x.seated = none) (hwin : d.past x.winTs (200 * us) = true)
  (hon : on = x.winOn + (if x.gate then min (min 20000 (4 * since d.clk.now x.gateTs)) (4 * since d.clk.now x.winTs) else 0))
  (hshare : share = min 128 (on * 128 / 20000)) (htop : top = max x.sMax share)
include hawake hx hphase hreg hseated hwin hon hshare htop

/-- What a window's end makes of the channel: it counts the window and, from the second on, weighs its share. -/
theorem onShare_eq : onShare c d = d.onSol c fun s =>
    if x.windows + 1 < 2 then { s with winOn := 0, windows := x.windows + 1 }
    else match decide (share ≤ 3 * top / 4), x.lowTs with
      | true, some t => { s with winOn := 0, windows := x.windows + 1, sMax := top, seated := some t, seatSeen := d.clk.now }
      | true, none => { s with winOn := 0, windows := x.windows + 1, sMax := top, lowTs := some x.winTs }
      | false, _ => { s with winOn := 0, windows := x.windows + 1, sMax := top, lowTs := none } := by
  have hshare : share = x.share d.clk.now := by
    rw [hshare, hon, Sol.share]
    cases x.gate <;> rfl
  subst htop hshare
  have taken : ¬ (!d.awake || (d.sol.get c).phase != .peak || !(d.sol.get c).regulating || (d.sol.get c).seated.isSome ||
      !d.past (d.sol.get c).winTs (200 * us)) = true := by
    rw [← hx, hawake, hphase, hreg, hseated, hwin]
    exact Bool.false_ne_true
  refine (if_neg taken).trans ((Dev.onSol_onSol _ _).trans (Dev.onSol_congr ?_))
  rw [← hx]
  by_cases hfirst : x.windows + 1 < 2
  · simp only [hfirst, if_true]
  · simp only [hfirst, if_false]
    cases decide (x.share d.clk.now ≤ 3 * max x.sMax (x.share d.clk.now) / 4) <;> cases x.lowTs <;> rfl

end OnShare

theorem mem_fin8 (c : Fin 8) : c ∈ fin8 := by
  revert c
  decide

section Models

variable {d : Dev}

/-- A millisecond of a channel's model at this device (R430). -/
def Dev.coilModel (d : Dev) (c : Fin 8) (x : Sol) : Sol :=
  let k := min 511 (x.acc * 256 / (max x.accN 1 * max (10 * d.solCap) 1))
  { x with
    acc := 0, accN := 0
    th := x.th + (((1920 * k * k * d.coilIndex c / 2 ^ 24 * 65536 : Nat) : Int) - x.th) / 65536 }

/-- No channel has a record or is marked as hot, and of the device only the channels have changed. -/
structure CoilsQuiet (d e : Dev) : Prop where
  frame : { e with sol := d.sol } = d
  owner : ∀ c, (e.sol.get c).owner = none
  cold : ∀ c, (e.sol.get c).hotPosted = false

theorem CoilsQuiet.step {e : Dev} (h : CoilsQuiet d e) (c : Fin 8) : CoilsQuiet d (e.onSol c (d.coilModel c)) := by
  have channel (P : Sol → Prop) (hP : ∀ k, P (e.sol.get k)) (hmodel : ∀ x, P x → P (d.coilModel c x)) (k : Fin 8) :
      P ((e.onSol c (d.coilModel c)).sol.get k) := by
    by_cases hk : k = c
    · rw [hk, Dev.onSol_get_self]
      exact hmodel _ (hP c)
    · rw [Dev.onSol_get_ne e hk]
      exact hP k
  exact ⟨h.frame, channel (fun x => x.owner = none) h.owner fun _ hx => hx, channel (fun x => x.hotPosted = false) h.cold fun _ hx => hx⟩

/-- Without a record and a mark a channel's update is its model alone. -/
theorem CoilsQuiet.update {e : Dev} (h : CoilsQuiet d e) (c : Fin 8) :
    (let f := (e.coilStep c).coilHot c
     let s := f.sol.get c
     if s.hotPosted && s.theta ≤ 960 then (f.onSol c fun s => { s with hotPosted := false }).endCond cCoilHot c.val else f) =
      e.onSol c (d.coilModel c) := by
  have same : e.coilStep c = e.onSol c (d.coilModel c) := by
    obtain ⟨hframe, -, -⟩ := h
    rw [← hframe]
    rfl
  have next := h.step c
  have free : ((e.onSol c (d.coilModel c)).coilHot c) = e.onSol c (d.coilModel c) := by
    simp only [Dev.coilHot, Dev.runOn, next.owner c]
  simp only [same, free, next.cold c, Bool.false_and, Bool.false_eq_true, if_false]

/-- With no record and no mark the millisecond's update is each channel's model, in order. -/
theorem coilModels_quiet (hop : d.operating = true)
    (hquiet : ∀ c : Fin 8, (d.sol.get c).owner = none ∧ (d.sol.get c).hotPosted = false) :
    coilModels d = fin8.foldl (fun e c => e.onSol c (d.coilModel c)) d := by
  have fold (cs : List (Fin 8)) : ∀ e, CoilsQuiet d e →
      cs.foldl (fun e c => let f := (e.coilStep c).coilHot c
                           let s := f.sol.get c
                           if s.hotPosted && s.theta ≤ 960 then (f.onSol c fun s => { s with hotPosted := false }).endCond cCoilHot c.val
                           else f) e = cs.foldl (fun e c => e.onSol c (d.coilModel c)) e := by
    induction cs with
    | nil => exact fun _ _ => rfl
    | cons c cs ih =>
      intro e he
      rw [List.foldl_cons, List.foldl_cons, he.update c]
      exact ih _ (he.step c)
  exact (if_neg (by rw [hop]; exact Bool.false_ne_true)).trans
    (fold fin8 d ⟨rfl, fun c => (hquiet c).1, fun c => (hquiet c).2⟩)

/-- A channel visited once is changed once, and any other stands. -/
theorem Dev.foldl_onSol_get (g : Fin 8 → Sol → Sol) (c : Fin 8) (cs : List (Fin 8)) : ∀ (e : Dev), cs.Nodup →
    (cs.foldl (fun e k => e.onSol k (g k)) e).sol.get c = if c ∈ cs then g c (e.sol.get c) else e.sol.get c := by
  induction cs with
  | nil => exact fun e _ => (if_neg List.not_mem_nil).symm
  | cons k cs ih =>
    intro e hnd
    obtain ⟨hk, hnd⟩ := List.nodup_cons.mp hnd
    rw [List.foldl_cons, ih _ hnd]
    by_cases hc : c = k
    · rw [hc, if_neg hk, if_pos List.mem_cons_self, Dev.onSol_get_self]
    · rw [Dev.onSol_get_ne e hc]
      simp only [List.mem_cons, hc, false_or]

theorem Dev.foldl_onSol_frame (g : Fin 8 → Sol → Sol) (cs : List (Fin 8)) : ∀ (e : Dev),
    { cs.foldl (fun e k => e.onSol k (g k)) e with sol := e.sol } = e := by
  induction cs with
  | nil => exact fun e => rfl
  | cons k cs ih =>
    intro e
    rw [List.foldl_cons]
    exact congrArg (fun b : Dev => { b with sol := e.sol }) (ih (e.onSol k (g k)))

end Models

section Monitors

variable {d : Dev}

theorem coilOpen_eq {c : Fin 8} {r : SolRun} {e : Dev} (hr : d.runOn c = some r) (hawake : d.awake = true)
    (hphase : (d.sol.get r.ch).phase = .peak) (hweak : (d.sol.get r.ch).strong = false)
    (hpast : d.past (d.sol.get r.ch).phaseTs (min (2 * ms) (r.peakMax * hundred)) = true)
    (he : e = ((d.cutPulse r cCoilOpen (d.nextRef cCoilOpen r.ch.val)).releaseRun r.ch).shadowMate r.ch) :
    coilOpen c d = e.raise
      { code := cCoilOpen, sub := r.ch.val, sev := some .derate, lvl := .device, job := (e.adm r.seq).bind fun a => rJob a.raw
        detail := d.solDetail r.ch.val (pairOf r.ch).val (d.runSense r) (r.peak / 8) } := by
  subst he
  unfold coilOpen
  rw [hr]
  refine if_neg ?_
  rw [hawake, hphase, hweak, hpast]
  exact Bool.false_ne_true

/-- Whether the record on a channel pulses both channels of its pair. -/
def Dev.pulsedPaired (d : Dev) (c : Fin 8) : Bool := match d.runOn c with | some r => r.paired | none => false

theorem shortSupply_eq {c : Fin 8} {reading limit : Nat} (halive : d.alive = true) (hfit : d.noSolenoids = false)
    (hin : d.solx.fenced.get (pairOf c) = false) (hgate : (d.sol.get c).gate = false ∨ d.past (d.sol.get c).gateTs 5 = true)
    (hlimit : limit = if d.pulsedPaired c then 30 * d.solCap / 4 else 15 * d.solCap) :
    shortSupply c reading d = d.shorted c cCoilShortSupply reading limit := by
  have settled : ¬ ((d.sol.get c).gate && !d.past (d.sol.get c).gateTs 5) = true := by
    rcases hgate with h | h
    · rw [h]; exact Bool.false_ne_true
    · rw [h, Bool.not_true, Bool.and_false]; exact Bool.false_ne_true
  subst hlimit
  refine (if_neg settled).trans (if_neg ?_)
  rw [halive, hfit, hin]
  exact Bool.false_ne_true

/-- Whether a channel is tested: it has no record, and its pair's high side has been off for 1 ms and is not fenced. -/
def Dev.idleTested (d : Dev) (c : Fin 8) : Bool :=
  (d.sol.get c).owner.isNone && !d.solx.hs.get (pairOf c) && d.past (d.solx.hsTs.get (pairOf c)) (1 * ms) && !d.solx.fenced.get (pairOf c)

theorem Dev.idleTested_owned {c : Fin 8} (h : (d.sol.get c).owner ≠ none) : d.idleTested c = false := by
  rw [Dev.idleTested, Option.isNone_eq_false_iff.mpr (Option.isSome_iff_ne_none.mpr h)]
  rfl

theorem idleTest_none {rd : Oct Adc} (h : ∀ c : Fin 8, d.idleTested c = false) : idleTest rd d = d := by
  have none_tested : fin8.filter d.idleTested = [] := List.filter_eq_nil_iff.mpr fun c _ => by rw [h c]; exact Bool.false_ne_true
  unfold idleTest
  split
  · rfl
  · change List.foldl _ d (fin8.filter d.idleTested).zipIdx = d
    rw [none_tested]
    rfl

/-- The last channel alone is tested, for 20 µs. -/
theorem idleTest_last {rd : Oct Adc} {e : Dev} (hawake : d.awake = true) (hfit : d.noSolenoids = false)
    (hnow : d.clk.now.toNat % 2500000 = 0) (hlast : d.idleTested 7 = true) (hothers : ∀ c : Fin 8, c ≠ 7 → d.idleTested c = false)
    (he : e = (d.onSol 7 fun x => { x with testTo := some (d.at_ (20 * us)) })) :
    idleTest rd d = if d.capSixteenth ≤ shuntOf (rd.get 7).toNat
      then e.shorted 7 cCoilShortSupply (shuntOf (rd.get 7).toNat) d.capSixteenth else e := by
  have one : fin8.filter d.idleTested = [7] := by
    simp only [fin8, List.filter_cons, List.filter_nil, hlast, hothers 0 (by decide), hothers 1 (by decide), hothers 2 (by decide),
      hothers 3 (by decide), hothers 4 (by decide), hothers 5 (by decide), hothers 6 (by decide), Bool.false_eq_true, if_false, if_true]
  have unfenced : d.solx.fenced.get (pairOf 7) = false := by
    simp only [Dev.idleTested, Bool.and_eq_true, Bool.not_eq_true'] at hlast
    exact hlast.2
  have acts : ¬ (!d.awake || d.noSolenoids || decide (d.clk.now.toNat % 2500000 ≠ 0)) = true := by
    rw [hawake, hfit, decide_eq_false (not_not_intro hnow)]
    exact Bool.false_ne_true
  subst he
  refine (if_neg acts).trans ?_
  change List.foldl _ d (fin8.filter d.idleTested).zipIdx = _
  rw [one]
  have test (v : Nat) : (!d.solx.fenced.get (pairOf 7) && decide (d.capSixteenth ≤ v)) = decide (d.capSixteenth ≤ v) := by
    rw [unfenced, Bool.not_false, Bool.true_and]
  change (if !d.solx.fenced.get (pairOf 7) && decide (d.capSixteenth ≤ shuntOf (rd.get 7).toNat) then _ else _) = _
  rw [test]
  simp only [decide_eq_true_eq]
  rfl

theorem boostOvervolt_eq {code : Adc} {e : Dev} (halive : d.alive = true) (hfit : d.noSolenoids = false)
    (he : e = (d.solx.runs.foldl (fun b r => b.cutPulse r cBoostOvervolt (d.nextRef cBoostOvervolt 0)) d)) :
    boostOvervolt code d =
      ((Dev.gatesLow { e with solx := { e.solx with dump := true, overvolt := true } }).each8
          (fin8.filter fun c => (d.sol.get c).pulsing) fun c d => d.shadowMate c).raise
        { code := cBoostOvervolt, sev := some .stopDevice, lvl := .device
          detail := d.solDetail 0xFF 0xFF (vbstOf code.toNat) (d.clampLevel * 11 / 10) } := by
  subst he
  exact if_neg (by rw [halive, hfit]; exact Bool.false_ne_true)

end Monitors

/-- Settles O49: samples, the windows of the on share, the models, and each monitor. -/
theorem coilsAnswer : Obligations.CoilsAnswer := by
  refine ⟨fun s => ⟨fun sc vb hawake hsec => ?_, fun c x on share top hawake hx hphase hreg hseated hpast hon hshare htop => ?windows,
      fun hop hquiet => ?models⟩,
    fun s => ⟨fun c r e hr hawake hphase hweak hpast he => ?_, fun c reading halive hfit hin hgate => ⟨fun hone => ?_, fun r hr htwo => ?_⟩,
      fun rd hnow => ?_, fun rd hawake hfit hnow hnone => ?_, fun rd e hawake hfit hnow howner hhs hpast hin hothers he => ?idle,
      fun code e halive hfit he => ?_⟩⟩
  · exact exec_of_effect (if_neg (by rw [hawake, hsec]; exact Bool.false_ne_true))
  case windows =>
    have h : effect (.onShareWindow c) s.dev = _ := onShare_eq hawake hx hphase hreg hseated hpast hon hshare htop
    refine ⟨fun hfirst => ?_, fun hmore habove => ?_, fun hmore hlow hnew => ?_, fun t hmore hlow ht => ?_⟩
    · refine exec_of_effect (h.trans (Dev.onSol_congr ?_))
      rw [hfirst]
      rfl
    · refine exec_of_effect (h.trans (Dev.onSol_congr ?_))
      simp only [decide_eq_false (Nat.not_le.mpr habove), if_neg (show ¬ x.windows + 1 < 2 by omega)]
    · refine exec_of_effect (h.trans (Dev.onSol_congr ?_))
      simp only [decide_eq_true hlow, if_neg (show ¬ x.windows + 1 < 2 by omega), hnew]
      rfl
    · refine exec_of_effect (h.trans (Dev.onSol_congr ?_))
      simp only [decide_eq_true hlow, if_neg (show ¬ x.windows + 1 < 2 by omega), ht]
  case models =>
    refine ⟨_, exec_of_effect (coilModels_quiet hop hquiet), fun c x k hx hk => ?_, Dev.foldl_onSol_frame _ _ _⟩
    rw [Dev.foldl_onSol_get _ c fin8 s.dev (by decide), if_pos (mem_fin8 c), hx, hk, hx]
    rfl
  · exact exec_of_effect (coilOpen_eq hr hawake hphase hweak hpast he)
  · have single : s.dev.pulsedPaired c = false := by
      unfold Dev.pulsedPaired
      cases hr : s.dev.runOn c with
      | none => rfl
      | some r => exact hone r hr
    exact exec_of_effect (shortSupply_eq halive hfit hin hgate (by rw [single, if_neg Bool.false_ne_true]))
  · have paired : s.dev.pulsedPaired c = true := by
      unfold Dev.pulsedPaired
      rw [hr]
      exact htwo
    exact exec_of_effect (shortSupply_eq halive hfit hin hgate (by rw [paired, if_pos rfl]))
  · exact exec_of_effect (if_pos (by rw [decide_eq_true hnow, Bool.or_true]))
  · refine exec_of_effect (idleTest_none fun c => ?_)
    rcases hnone c with howned | hon | hsoon | hfenced
    · exact Dev.idleTested_owned howned
    · rw [Dev.idleTested, hon, Bool.not_true, Bool.and_false, Bool.false_and, Bool.false_and]
    · rw [Dev.idleTested, hsoon, Bool.and_false, Bool.false_and]
    · rw [Dev.idleTested, hfenced, Bool.not_true, Bool.and_false]
  case idle =>
    have last : s.dev.idleTested 7 = true := by
      rw [Dev.idleTested, howner]
      exact Bool.and_eq_true_iff.mpr ⟨Bool.and_eq_true_iff.mpr ⟨by rw [show pairOf 7 = 3 from rfl, hhs]; rfl, hpast⟩,
        by rw [show pairOf 7 = 3 from rfl, hin]; rfl⟩
    have h : effect (.coilIdleTest rd) s.dev = _ :=
      idleTest_last hawake hfit hnow last (fun c hc => Dev.idleTested_owned (hothers c hc)) he
    exact ⟨fun hbelow => exec_of_effect (h.trans (if_neg (Nat.not_le.mpr hbelow))), fun habove => exec_of_effect (h.trans (if_pos habove))⟩
  · exact exec_of_effect (boostOvervolt_eq halive hfit he)

end Sys2Proof.Machine
end


section
/-! The serial port: frames and units as they come, and answers (R447 to R464). -/

namespace Sys2Proof.Machine

/-! ## Frame mode -/

section Frames

variable {d : Dev} {f : UFrame}

theorem uartBreak_opens {n : Nat} (hframe : d.framing = true) (hlong : 50000000 * 11 ≤ n * d.uart.rate) :
    uartBreak n d = { d with uart := { d.uart with opened := true } } :=
  if_pos (by rw [hframe, Dev.bitTimes, decide_eq_true hlong]; rfl)

theorem uartBreak_short {n : Nat} (hshort : n * d.uart.rate < 50000000 * 11) : uartBreak n d = d :=
  if_neg (by rw [Dev.bitTimes, decide_eq_false (Nat.not_le.mpr hshort), Bool.and_false]; exact Bool.false_ne_true)

/-- A frame or a unit with data is whole, or its fields already say that it will be discarded. -/
theorem Parsed.judged {p : Parsed} (h : p.badField = true ∨ p.bytes.length = p.whole) :
    (!p.badField && decide (p.bytes.length ≠ p.whole)) = false := by
  rcases h with h | h
  · rw [h, Bool.not_true, Bool.false_and]
  · rw [decide_eq_false (not_not_intro h), Bool.and_false]

/-- A frame or a unit without data has no field that could be bad. -/
theorem Parsed.badField_of_empty {p : Parsed} (h : p.len = some 0) : p.badField = false := by
  simp only [Parsed.badField, h]

theorem uartWriteFrame_eq {n : Nat} (hframe : d.framing = true) (hopen : d.uart.opened = true) (hlen : (frameOf f).len = some n)
    (hn : n ≠ 0) (hjudged : (frameOf f).badField = true ∨ (frameOf f).bytes.length = (frameOf f).whole) :
    uartWriteFrame f d = d.uartFrame f := by
  have some_n : ¬ some n = some 0 := fun h => hn (Option.some.inj h)
  refine if_neg ?_
  rw [hframe, hopen, hlen, decide_eq_false some_n, Parsed.judged hjudged]
  exact Bool.false_ne_true

theorem uartPoll_eq (hframe : d.framing = true) (hopen : d.uart.opened = true) (hlen : (frameOf f).len = some 0)
    (hwhole : (frameOf f).bytes.length = (frameOf f).whole) : uartPoll f d = d.uartFrame f := by
  refine if_neg ?_
  rw [hframe, hopen, decide_eq_false (not_not_intro hlen), decide_eq_false (not_not_intro hwhole)]
  exact Bool.false_ne_true

section Timeout

variable {clocks rate : Nat} (hrate : rate =
  (if d.framing && !d.rateFails f && 2 ≤ f.chars.length then d.takeRate f else d).uart.rate)
include hrate

/-- Up to 16 bit times of idle end nothing. -/
theorem uartTimeout_soon (hsoon : clocks * rate ≤ 50000000 * 16) : uartTimeout f clocks d = d := by
  subst hrate
  exact if_pos (by rw [decide_eq_true hsoon, Bool.or_true])

variable (hchars : f.chars ≠ []) (hlate : 50000000 * 16 < clocks * rate)
include hchars hlate

theorem uartTimeout_late : ¬ (f.chars.isEmpty || decide (clocks *
    (if d.framing && !d.rateFails f && 2 ≤ f.chars.length then d.takeRate f else d).uart.rate ≤ 50000000 * 16)) = true := by
  rw [← hrate, List.isEmpty_eq_false_iff.mpr hchars, decide_eq_false (Nat.not_le.mpr hlate)]
  exact Bool.false_ne_true

theorem uartTimeout_stream (hstream : d.streaming = true) (hlead : (charBytes f).getD 0 0 = 0x55) :
    uartTimeout f clocks d = ((d.drainUnits.noisy f).discard f (unitOf f) cUartTimeout).unitReply [0x80] false :=
  (if_neg (uartTimeout_late hrate hchars hlate)).trans ((if_pos hstream).trans (if_neg (not_not_intro hlead)))

variable {e : Dev} (hstream : d.streaming = false) (hframe : d.framing = true) (hopen : d.uart.opened = true)
  (he : e = { d with uart := { d.uart with opened := false } })
include hstream hframe hopen he

/-- More than 16 bit times of idle within a frame end it. -/
theorem uartTimeout_frame : uartTimeout f clocks d =
    if (charBytes f).getD 0 0 ≠ 0x55 || d.rateFails f || f.chars.length < 2 then e.frameBad
    else if !pidOk ((charBytes f).getD 1 0) || !d.accepts ((charBytes f).getD 1 0) ||
        (d.sys.sleep == .dormant && 19200 < (e.takeRate f).uart.rate) then (e.takeRate f).frameBad
    else ((e.takeRate f).noisy f).discard f (frameOf f) cUartTimeout := by
  have sys : (e.takeRate f).sys = d.sys ∧ (e.takeRate f).accepts ((charBytes f).getD 1 0) = d.accepts ((charBytes f).getD 1 0) := by
    subst he
    unfold Dev.takeRate
    split
    · split <;> exact ⟨rfl, rfl⟩
    · exact ⟨rfl, rfl⟩
  rw [← sys.1, ← sys.2]
  subst he
  refine (if_neg (uartTimeout_late hrate hchars hlate)).trans ((if_neg (by rw [hstream]; exact Bool.false_ne_true)).trans (if_neg ?_))
  rw [hframe, hopen]
  exact Bool.false_ne_true

theorem uartTimeout_early (h : (charBytes f).getD 0 0 ≠ 0x55 ∨ d.rateFails f = true ∨ f.chars.length < 2) :
    uartTimeout f clocks d = e.frameBad := by
  rw [uartTimeout_frame hrate hchars hlate hstream hframe hopen he, if_pos]
  rcases h with h | h | h
  · rw [decide_eq_true h, Bool.true_or, Bool.true_or]
  · rw [h, Bool.or_true, Bool.true_or]
  · rw [decide_eq_true h, Bool.or_true]

variable (hsync : (charBytes f).getD 0 0 = 0x55) (hfits : d.rateFails f = false) (htwo : 2 ≤ f.chars.length)
  (hawake : d.sys.sleep = .awake)
include hsync hfits htwo hawake

theorem uartTimeout_identified : uartTimeout f clocks d =
    if !pidOk ((charBytes f).getD 1 0) || !d.accepts ((charBytes f).getD 1 0) then (e.takeRate f).frameBad
    else ((e.takeRate f).noisy f).discard f (frameOf f) cUartTimeout := by
  have begun : ¬ (decide ((charBytes f).getD 0 0 ≠ 0x55) || d.rateFails f || decide (f.chars.length < 2)) = true := by
    rw [decide_eq_false (not_not_intro hsync), hfits, decide_eq_false (Nat.not_lt.mpr htwo)]
    exact Bool.false_ne_true
  have awake : (d.sys.sleep == .dormant && decide (19200 < (e.takeRate f).uart.rate)) = false := by rw [hawake]; rfl
  rw [uartTimeout_frame hrate hchars hlate hstream hframe hopen he, if_neg begun, awake, Bool.or_false]

end Timeout

end Frames

/-! ## Stream mode -/

section Stream

variable {d : Dev} {f : UFrame}

theorem streamWriteUnit_eq {n : Nat} (hstream : d.streaming = true) (hlead : (unitOf f).bytes.getD 0 0 = 0x55)
    (hlen : (unitOf f).len = some n) (hn : n ≠ 0)
    (hjudged : (unitOf f).badField = true ∨ (unitOf f).bytes.length = (unitOf f).whole) : streamWriteUnit f d = d.uartUnit f := by
  have some_n : ¬ some n = some 0 := fun h => hn (Option.some.inj h)
  refine if_neg ?_
  rw [hstream, decide_eq_false (not_not_intro hlead), hlen, decide_eq_false some_n, Parsed.judged hjudged]
  exact Bool.false_ne_true

theorem streamPollUnit_eq (hstream : d.streaming = true) (hlead : (unitOf f).bytes.getD 0 0 = 0x55)
    (hlen : (unitOf f).len = some 0)
    (hjudged : (unitOf f).badField = true ∨ (unitOf f).bytes.length = (unitOf f).whole) : streamPollUnit f d = d.uartUnit f := by
  have hwhole : (unitOf f).bytes.length = (unitOf f).whole :=
    hjudged.resolve_left (by rw [Parsed.badField_of_empty hlen]; exact Bool.false_ne_true)
  refine if_neg ?_
  rw [hstream, decide_eq_false (not_not_intro hlead), decide_eq_false (not_not_intro hlen), decide_eq_false (not_not_intro hwhole)]
  exact Bool.false_ne_true

/-- In stream mode no frame is open, so that the rate in force stands. -/
theorem Dev.framing_of_streaming (h : d.streaming = true) : d.framing = false := by
  simp only [Dev.streaming, Bool.and_eq_true, beq_iff_eq] at h
  simp [Dev.framing, h.1.2]

/-- What the device itself has to say of the stream leaves it where nothing waits. -/
theorem Dev.drainUnits_of_none (hunits : d.uart.rxUnits = []) (hxoff : d.uart.xoffSent = false) : d.drainUnits = d := by
  have same : ({ d with uart := { d.uart with rxUnits := [] } } : Dev) = d := by rw [← hunits]
  unfold Dev.drainUnits
  rw [same, hunits, List.foldl_nil]
  simp [Dev.flow, Dev.rxUsed, hunits, hxoff]

/-- The answer that waits longest goes out, and a poll's clears the two counters. -/
theorem uartReply_eq {b : List Byte} {poll : Bool} {rest : List (List Byte × Bool)} (hhears : d.hears = true)
    (hmode : d.uartMode ≠ 0) (hheld : d.uart.held = false) (hsleep : d.sys.sleep ≠ .dormant) (hunits : d.uart.rxUnits = [])
    (hxoff : d.uart.xoffSent = false) (hreplies : d.uart.replies = (b, poll) :: rest) :
    uartReply d = { d with uart := { d.uart with
      replies := rest, sent := b
      framesBad := if poll then 0 else d.uart.framesBad, noisy := if poll then 0 else d.uart.noisy } } := by
  refine (if_neg ?_).trans ?_
  · rw [hhears, decide_eq_false hmode, hheld, beq_false_of_ne hsleep]
    exact Bool.false_ne_true
  · simp only [Dev.drainUnits_of_none hunits hxoff, hreplies]
    cases poll <;> rfl

end Stream

/-- Settles O50: the commands of frame mode, of stream mode, and the answer. -/
theorem serialAnswers : Obligations.SerialAnswers := by
  refine ⟨fun s hframe => ⟨fun n => ⟨fun hlong => ?_, fun hshort => ?_⟩, fun hopen l f hf => ⟨fun n hlen hn hjudged => ?_,
      fun hlen hwhole => ?_, fun n rate e hstream hchars hrate he => ?timeout⟩⟩,
    fun s => ⟨fun hstream => ⟨fun l f hf hlead => ⟨fun n hlen hjudged => ⟨fun hn => ?_, fun hn => ?_⟩, fun n hlate => ?unit⟩,
      fun u => ⟨fun hhigh => ?_, fun c hc hlead hxon hxoff => ?_⟩, ?_, ?_⟩,
      fun hhears hmode hheld hsleep hunits hxoff b poll rest hreplies => ?_⟩⟩
  · exact exec_of_effect (uartBreak_opens hframe hlong)
  · exact exec_of_effect (uartBreak_short hshort)
  · subst hf
    exact exec_of_effect (uartWriteFrame_eq hframe hopen hlen hn hjudged)
  · subst hf
    exact exec_of_effect (uartPoll_eq hframe hopen hlen hwhole)
  case timeout =>
    subst hf
    have hrate : rate = (if s.dev.framing && !s.dev.rateFails (s.dev.received l) && 2 ≤ (s.dev.received l).chars.length
        then s.dev.takeRate (s.dev.received l) else s.dev).uart.rate := by
      rw [hrate]
      refine congrArg (fun d : Dev => d.uart.rate) (ite_congr (propext ?_) (fun _ => rfl) fun _ => rfl)
      rw [hframe, Bool.true_and, Bool.and_eq_true, Bool.not_eq_true', decide_eq_true_eq]
    refine ⟨fun hsoon => ?_, fun hlate => ⟨fun hearly => ?_, fun hsync hfits htwo hawake => ?identified⟩⟩
    · exact exec_of_effect (uartTimeout_soon hrate hsoon)
    · exact exec_of_effect (uartTimeout_early hrate hchars hlate hstream hframe hopen he hearly)
    case identified =>
      have h : effect (.uartTimeout l n) s.dev = _ :=
        uartTimeout_identified hrate hchars hlate hstream hframe hopen he hsync hfits htwo hawake
      refine ⟨fun hother => exec_of_effect (h.trans (if_pos ?_)), fun hpid hacc => exec_of_effect (h.trans (if_neg ?_))⟩
      · rcases hother with hpid | hacc
        · rw [hpid, Bool.not_false, Bool.true_or]
        · rw [hacc, Bool.not_false, Bool.or_true]
      · rw [hpid, hacc]
        exact Bool.false_ne_true
  · subst hf
    exact exec_of_effect (streamWriteUnit_eq hstream hlead hlen hn hjudged)
  · subst hf hn
    exact exec_of_effect (streamPollUnit_eq hstream hlead hlen hjudged)
  case unit =>
    subst hf
    have chars : (s.dev.received l).chars ≠ [] := by
      intro hnil
      simp [unitOf, charBytes, hnil] at hlead
    refine exec_of_effect (uartTimeout_stream ?_ chars hlate hstream hlead)
    rw [Dev.framing_of_streaming hstream]
    rfl
  · refine exec_of_effect (?_ : streamStray (rxChar s.dev.uartFormat u) s.dev = _)
    rw [show rxChar s.dev.uartFormat u = none from if_pos hhigh]
    rfl
  · refine exec_of_effect (?_ : streamStray (rxChar s.dev.uartFormat u) s.dev = _)
    rw [hc]
    refine if_neg ?_
    rw [hstream, decide_eq_false hlead, decide_eq_false hxon, decide_eq_false hxoff]
    exact Bool.false_ne_true
  · exact exec_of_effect (if_pos hstream)
  · exact exec_of_effect (if_pos hstream)
  · exact exec_of_effect (uartReply_eq hhears hmode hheld hsleep hunits hxoff hreplies)

end Sys2Proof.Machine
end


section
/-! Commands that complete, first part: the window, its sections and its writers (R108 to R119). -/

namespace Sys2Proof.Machine

/-- Core Lean has this only for an append. -/
theorem takeWhile_of_forall {α : Type} {p : α → Bool} {l : List α} (h : ∀ a ∈ l, p a = true) : l.takeWhile p = l := by
  have := List.takeWhile_append_of_pos (l₂ := []) h
  rwa [List.takeWhile_nil, List.append_nil] at this

/-- A read of the slice of which every byte is decoded drives them all, and only the host port counts it (R92). -/
theorem xspiRead_served {ca : BitVec 48} {words : Nat} {d : Dev} (hread : caRead ca = true) (ha : d.answering = .slice) (hmine : d.caMine ca = true)
    (hdec : caDecoded ca = true) (hdrive : d.link.driving = true)
    (hin : ∀ i, i < 2 * words → caByte ca i < 0x400000 ∧ inReserved (caByte ca i) = false) :
    xspiRead ca true words d = { d with port := { d.port with
      dq := some ((List.range (2 * words)).map fun i => d.winByte (caByte ca i)), readCount := d.port.readCount + 1 } } := by
  have served : ((List.range (2 * words)).map (caByte ca)).takeWhile (· < 0x400000) = (List.range (2 * words)).map (caByte ca) := by
    refine takeWhile_of_forall fun a ha => ?_
    obtain ⟨i, hi, rfl⟩ := List.mem_map.mp ha
    exact decide_eq_true (hin i (List.mem_range.mp hi)).1
  have decoded : ((List.range (2 * words)).map (caByte ca)).any inReserved = false := by
    refine List.any_eq_false.mpr fun a ha => ?_
    obtain ⟨i, hi, rfl⟩ := List.mem_map.mp ha
    rw [(hin i (List.mem_range.mp hi)).2]
    exact Bool.false_ne_true
  have whole : xspiRead ca true words d = hostReads ca true words d := if_pos hread
  rw [whole, hostReads_slice rfl ha hmine hdec rfl served.symm rfl, decoded, Bool.or_false,
    decide_eq_false (Nat.lt_irrefl _), if_neg Bool.false_ne_true, hdrive, if_pos rfl, List.map_map]
  rfl

/-! ## Sections -/

theorem Dev.secOn_setSec (d : Dev) {n : Nat} (hn : n < 28) : (d.setSec n true).secOn n = true := by
  simp only [Dev.secOn, Dev.setSec, if_true, BitVec.getLsbD_or, BitVec.getLsbD_ofNat, Nat.testBit_two_pow_self, hn, decide_true,
    Bool.and_self, Bool.or_true]

theorem Dev.poke_inForce (d : Dev) (a : Nat) (vs : List Byte) : (d.poke a vs).win.inForce = d.win.inForce := by
  unfold Dev.poke
  split <;> rfl

/-- Ending the blindness of channels leaves the window. -/
theorem Dev.endBlind_win (keep : Dev → Fin 8 → Bool) (ch : List (Fin 8)) (d : Dev) :
    (ch.foldl (init := d) fun d c => if keep d c then d else d.endCond cSensorBlind c.val).win = d.win := by
  induction ch generalizing d with
  | nil => rfl
  | cons c ch ih => exact (ih _).trans (by dsimp only; split <;> rfl)

theorem Dev.unblind_inForce (d : Dev) (n : Nat) : (d.unblind n).win.inForce = d.win.inForce := by
  unfold Dev.unblind
  dsimp only
  rw [Dev.endBlind_win fun d c => fin4.any fun s => d.secOn (16 + s.val) && bit (le (d.mediaSec s.val) 0x2D 1) c.val]
  split
  · rfl
  · rw [Dev.sealSec, Dev.poke_inForce, Dev.poke_inForce]

theorem Dev.syncChannels_win (d : Dev) : d.syncChannels.win = d.win := by
  unfold Dev.syncChannels
  split <;> rfl

/-- A section whose header checks is in force after its hand-over (R108). -/
theorem sectionHandover_inForce {n : Nat} {d : Dev} (hn : n < 28) (hop : d.operating = true) (hown : d.owns (secAddr n) = true)
    (hoff : d.secOn n = false) (hgood : d.sectionFault n = none) : (sectionHandover n d).secOn n = true := by
  have on : ∀ e : Dev, e.win.inForce = (d.setSec n true).win.inForce → e.secOn n = true := fun e he => by
    rw [Dev.secOn, he]
    exact Dev.secOn_setSec d hn
  unfold sectionHandover
  rw [if_neg (by rw [hop, hown, hoff]; exact Bool.false_ne_true)]
  split
  · next hbad => cases hgood.symm.trans hbad
  · dsimp only
    split
    · refine on _ ?_
      rw [Dev.syncChannels_win, Dev.unblind_inForce]
    · exact on _ rfl

theorem sectionRelease_eq {n : Nat} {d : Dev} (hop : d.operating = true) (hband : d.line.band = none) (hmover : d.mover = none)
    (hon : d.secOn n = true) (hasked : d.ram (secAddr n + 3) = 0x5A) (hfree : d.secNamed n = false) (htable : d.followsTable n = false) :
    sectionRelease n d = ((d.setSec n false).poke (secAddr n + 3) [0]).handBack (secAddr n) := by
  refine (if_neg ?_).trans (if_pos ?_)
  · rw [hop, hband, hmover]
    exact Bool.false_ne_true
  · rw [hon, hasked, hfree, htable]
    rfl

/-! ## Blocks, status records and gauge frames -/

theorem blockCheck_eq {n : Nat} {rest : List Nat} {d : Dev} (hop : d.operating = true) (hhanded : d.win.handed = n :: rest)
    (hown : d.owns (poolBlock n) = true) :
    blockCheck d = Dev.checkBlock { d with win := { d.win with handed := rest } } n := by
  unfold blockCheck
  rw [if_neg (by rw [hop]; exact Bool.false_ne_true), hhanded]
  exact if_pos hown

theorem statusWrite_eq {d : Dev} (hop : d.operating = true) (hready : d.sys.ready = true) : statusWrite d = d.writeStatus :=
  if_pos (by rw [hop, hready]; rfl)

theorem Dev.poke_gauge (d : Dev) (a : Nat) (vs : List Byte) :
    (d.poke a vs).win.gaugeSeq = d.win.gaugeSeq ∧ (d.poke a vs).win.gaugeSel = d.win.gaugeSel := by
  unfold Dev.poke
  split <;> exact ⟨rfl, rfl⟩

/-- A due gauge frame counts on, takes the other buffer next, and leaves the rings (R119). -/
theorem gaugeWrite_due {d : Dev} (hop : d.operating = true) (hready : d.sys.ready = true)
    (hdue : d.win.gaugeSeq = 0 ∨ d.past d.win.gaugeTs (1 * ms) = true) :
    (gaugeWrite d).win.gaugeSeq = d.win.gaugeSeq + 1 ∧ (gaugeWrite d).win.gaugeSel = !d.win.gaugeSel ∧
    (gaugeWrite d).rings = d.rings := by
  have due : ∀ ticked : Bool, (decide (d.win.gaugeSeq = 0) || ticked || d.past d.win.gaugeTs (1 * ms)) = true := fun ticked => by
    rcases hdue with h | h
    · rw [decide_eq_true h, Bool.true_or, Bool.true_or]
    · rw [h, Bool.or_true]
  unfold gaugeWrite
  dsimp only
  rw [if_neg (by rw [hop, hready, due]; exact Bool.false_ne_true)]
  simp only [Dev.poke_gauge, Dev.poke_rings, and_self]

end Sys2Proof.Machine
end


section
/-! What a reaction leaves of the line being fired: its slots and phases go on at their own pace (R536 to R540). -/

namespace Sys2Proof.Machine

/-- What no step of a fold changes, the fold does not change. -/
theorem foldl_keeps {α σ β : Type} (g : σ → β) {f : σ → α → σ} (h : ∀ s x, g (f s x) = g s) (l : List α) (s : σ) :
    g (l.foldl f s) = g s := by
  induction l generalizing s with
  | nil => rfl
  | cons x l ih => exact (ih (f s x)).trans (h s x)

/-- What neither branch of a choice changes, the choice does not change. -/
theorem ite_keeps {σ β : Type} (g : σ → β) {c : Prop} [Decidable c] {a b : σ} {v : β} (ha : g a = v) (hb : g b = v) :
    g (if c then a else b) = v := by
  split
  · exact ha
  · exact hb

/-! ## Records and completions -/

@[simp] theorem Dev.make_line (d : Dev) (k : Keep) (ty flags mask : Nat) (tag : W32) (code : W16) (ts tick : Ts) (body : List Byte) :
    (d.make k ty flags mask tag code ts tick body).2.line = d.line := by
  have h := congrArg Dev.line (d.make_frame k ty flags mask tag code ts tick body)
  exact h

@[simp] theorem Dev.event_line (d : Dev) (r : Rise) (flags count sev : Nat) (k : Keep) : (d.event r flags count sev k).2.line = d.line :=
  d.make_line _ _ _ _ _ _ _ _ _

@[simp] theorem Dev.report_line (d : Dev) (r : Rise) : (d.report r).line = d.line := d.event_line _ _ _ _ _

@[simp] theorem Dev.note_line (d : Dev) (c : W16) (l : List Byte) : (d.note c l).line = d.line := d.report_line _

@[simp] theorem Dev.tellRing_line (d : Dev) (r : Rise) (sev : Sev) (lvl : Lvl) (flags : Nat) :
    (d.tellRing r sev lvl flags).line = d.line := by
  have h := congrArg Dev.line (d.tellRing_frame r sev lvl flags)
  exact h

@[simp] theorem Dev.postComplete_line (d : Dev) (raw : List Byte) (res : Result) (lvl : Lvl) (o fl : Nat) (c : W16) (dl : Nat) (ref : W32)
    (x y : Nat) (rs : List Byte) (ts tick : Ts) : (d.postComplete raw res lvl o fl c dl ref x y rs ts tick).line = d.line :=
  d.make_line _ _ _ _ _ _ _ _ _

@[simp] theorem Dev.remerge_line (d : Dev) (job : Option (W32 × W32)) (p : Fin 4) : (d.remerge job p).2.line = d.line := by
  have posts (e : Dev) (r : Rise) : (if e.sys.ready then e.report r else { e with sys.early := e.sys.early ++ [r] }).line = e.line := by
    split
    · exact e.report_line r
    · rfl
  unfold Dev.remerge
  dsimp only
  split
  · rfl
  · dsimp only
    split
    · split
      · rfl
      · exact posts _ _
    · refine (posts _ _).trans ?_
      split
      · rfl
      · exact posts _ _

@[simp] theorem Dev.close_line (d : Dev) (q : W32) (e : Ending) : (d.close q e).line = d.line := by
  have merged (d : Dev) (job : Option (W32 × W32)) (ps : List (Fin 4)) : (d.each4 ps fun p d => (d.remerge job p).2).line = d.line :=
    foldl_keeps (·.line) (fun d p => d.remerge_line job p) ps d
  unfold Dev.close
  dsimp only
  split
  · exact d.setWait_line q none
  · dsimp only
    rw [Dev.postComplete_line]
    split
    · rw [merged, Dev.setWait_line]
    · exact d.setWait_line q none

@[simp] theorem Dev.refuse_line (d : Dev) (q : W32) (c : W16) (ref : W32) : (d.refuse q c ref).line = d.line := d.close_line _ _

/-! ## Bands and moves -/

@[simp] theorem Dev.dropBlock_line (d : Dev) (b : Blk) : (d.dropBlock b).line = d.line := d.handBack_line _

@[simp] theorem Dev.dropBlocks_line (stop : List W32) (all : Bool) (off n : Nat) (d : Dev) (base : W32 × Nat) :
    (d.dropBlocks stop all off n base).1.line = d.line := by
  induction n generalizing d base with
  | zero => rfl
  | succ n ih =>
    unfold Dev.dropBlocks
    split
    · rfl
    · split
      · split
        · exact ih _ _
        · rfl
      · split
        · split
          · exact (ih _ _).trans (d.dropBlock_line _)
          · rfl
        · split
          · exact (ih _ _).trans (d.dropBlock_line _)
          · rfl

@[simp] theorem Dev.dropBand_line (d : Dev) (raw : List Byte) (base : W32 × Nat) : (d.dropBand raw base).line = d.line :=
  Dev.dropBlocks_line _ _ _ _ d _

@[simp] theorem Dev.flushTimes_fire (d : Dev) : d.flushTimes.line.fire = d.line.fire := by
  unfold Dev.flushTimes
  split
  · rfl
  · dsimp only
    split
    · rfl
    · simp only [Dev.make_line]

@[simp] theorem Dev.endBand_fire (d : Dev) (e : Ending) : (d.endBand e).line.fire = d.line.fire := by
  unfold Dev.endBand
  dsimp only
  split
  · exact d.flushTimes_fire
  · dsimp only
    simp only [Dev.close_line, Dev.dropBlocks_line, Dev.postPause]
    split <;> split <;> simp only [Dev.onAdm_line, Dev.report_line, Dev.flushTimes_fire]

@[simp] theorem Dev.addLine_fire (d : Dev) (p n : Nat) (last tick : Bool) : (d.addLine p n last tick).line.fire = d.line.fire := by
  have step (c : Prop) [Decidable c] (f : Axis → Axis) : (if c then d else d.onAxis 0 f).line.fire = d.line.fire := by
    split <;> rfl
  exact step _ _

@[simp] theorem Dev.refill_fire (d : Dev) (n : Nat) : (d.refill n).line.fire = d.line.fire := by
  have stops (d : Dev) (t : Bool) : (d.planStop t).line.fire = d.line.fire := by
    unfold Dev.planStop
    dsimp only
    split
    · rfl
    · split <;> exact d.addLine_fire _ _ _ _
  have goes (d : Dev) (goal : Int) (t : Bool) : (d.planToward goal t).line.fire = d.line.fire := by
    unfold Dev.planToward
    extract_lets g l R
    split
    · rfl
    · exact Dev.addLine_fire _ _ _ _ _
  induction n generalizing d with
  | zero => rfl
  | succ n ih =>
    unfold Dev.refill
    split
    · rfl
    · split
      · rfl
      · split
        · rfl
        · exact (ih _).trans (stops d _)
      all_goals
        split
        · split
          · rfl
          · exact (ih _).trans (goes d _ _)
        · rfl

@[simp] theorem Dev.stopMedia_fire (d : Dev) (back : Option Int) : (d.stopMedia back).line.fire = d.line.fire := by
  unfold Dev.stopMedia
  split
  · rfl
  · rfl
  · exact Dev.refill_fire _ _

@[simp] theorem Dev.stopBand_fire (d : Dev) (c : W16) (ref : W32) (back : Bool) : (d.stopBand c ref back).line.fire = d.line.fire := by
  have moves (p : Bool) (e : Dev) (b : Option Int) : (if p then e.stopMedia b else e).line.fire = e.line.fire := by
    split
    · exact e.stopMedia_fire b
    · rfl
  unfold Dev.stopBand
  split
  · rfl
  · split
    · rfl
    · rfl
    · exact (moves _ _ _).trans d.flushTimes_fire
    · split
      · exact moves _ _ _
      · rfl
    · rfl

@[simp] theorem Dev.abandonBand_fire (d : Dev) (c : W16) (ref : W32) (lvl : Lvl) : (d.abandonBand c ref lvl).line.fire = d.line.fire := by
  unfold Dev.abandonBand
  extract_lets printing stopped src unpaused halted
  have hunpaused : unpaused.line.fire = stopped.line.fire := by
    unfold unpaused
    split <;> rfl
  have hhalted : halted.line.fire = unpaused.line.fire := by
    unfold halted
    split
    · exact Dev.stopMedia_fire _ _
    · rfl
  have hfire : halted.line.fire = d.line.fire := hhalted.trans (hunpaused.trans (d.stopBand_fire c ref false))
  split
  · exact hfire
  · split
    · refine (congrArg Line.fire (Dev.refuse_line _ _ _ _)).trans ?_
      exact (congrArg Line.fire (Dev.dropBand_line _ _ _)).trans hfire
    · split
      · exact hfire
      · exact (Dev.endBand_fire _ _).trans hfire

@[simp] theorem Dev.abandonMove_fire (d : Dev) (c : W16) (ref : W32) (lvl : Lvl) : (d.abandonMove c ref lvl).line.fire = d.line.fire :=
  Dev.stopMedia_fire _ _

@[simp] theorem Dev.pauseMove_fire (d : Dev) : d.pauseMove.line.fire = d.line.fire := by
  unfold Dev.pauseMove
  split
  · rfl
  · exact Dev.stopMedia_fire _ _

/-! ## Shadows and tasting runs -/

@[simp] theorem Dev.shadow_line (d : Dev) (why : Disturb) (sub : Option Nat) (n : Option Nat) : (d.shadow why sub n).line = d.line := by
  refine foldl_keeps (·.line) (fun d c => ?_) _ d
  rfl

@[simp] theorem Dev.shadowPorts_line (d : Dev) (ps : List (Fin 4)) : (d.shadowPorts ps).line = d.line :=
  foldl_keeps (·.line) (fun d _ => d.shadow_line _ _ _) ps d

@[simp] theorem Dev.dotFound_line (d : Dev) (p : Fin 4) (job : Option (W32 × W32)) (dot r cause : Nat) :
    (d.dotFound p job dot r cause).1.line = d.line := by
  unfold Dev.dotFound
  split
  · rfl
  · dsimp only
    split
    · rfl
    · exact (Dev.report_line _ _).trans (d.onHead_line _ _)

@[simp] theorem Dev.judgePort_line (d : Dev) (p : Fin 4) (job : Option (W32 × W32)) (l : List (Nat × Nat × Nat)) :
    (d.judgePort p job l).1.line = d.line := by
  unfold Dev.judgePort
  split
  · rfl
  · extract_lets nom
    refine foldl_keeps (fun s : Dev × List (Nat × Nat × Nat) => s.1.line) (fun s x => ?_) l (d, [])
    exact s.1.dotFound_line p job _ _ _

@[simp] theorem Dev.ageOnce_line (d : Dev) (c : W16) (s i v b l : Nat) : (d.ageOnce c s i v b l).line = d.line := by
  unfold Dev.ageOnce
  split
  · rfl
  · exact Dev.note_line _ _ _

@[simp] theorem Dev.ageTaste_line (d : Dev) (p : Fin 4) (l : List (Nat × Nat × Nat)) : (d.ageTaste p l).line = d.line := by
  unfold Dev.ageTaste
  extract_lets a booked mean noted base
  have hbooked : booked.line = d.line := by simp only [booked, Dev.ledSet_line, Dev.ledAdd_line]
  have hnoted : noted.line = d.line := (booked.ledSet_line _ _ _).trans hbooked
  split
  · exact hbooked
  · split
    · exact (Dev.ledSet_line _ _ _ _).trans ((Dev.ledSet_line _ _ _ _).trans hnoted)
    · split
      · exact (Dev.ageOnce_line _ _ _ _ _ _ _).trans hnoted
      · split
        · exact (Dev.ageOnce_line _ _ _ _ _ _ _).trans hnoted
        · exact hnoted

@[simp] theorem Dev.tasteEnd_line (d : Dev) (t : Taste) : (d.tasteEnd t).1.line = d.line := by
  unfold Dev.tasteEnd
  split
  · rfl
  · refine foldl_keeps (·.1.line) (fun s p => ?_) _ (d, t)
    dsimp only
    split
    · exact s.1.judgePort_line _ _ _
    · exact (Dev.ageTaste_line _ _ _).trans (s.1.judgePort_line _ _ _)

@[simp] theorem Dev.hmeasLow_line (d : Dev) : d.hmeasLow.line = d.line := by
  unfold Dev.hmeasLow
  split <;> rfl

@[simp] theorem Dev.abandonTaste_line (d : Dev) (c : W16) (ref : W32) (lvl : Lvl) : (d.abandonTaste c ref lvl).line = d.line := by
  unfold Dev.abandonTaste
  split
  · rfl
  · exact (Dev.close_line _ _ _).trans ((Dev.hmeasLow_line _).trans (d.tasteEnd_line _))

/-! ## Cuts, runs and AX3 -/

@[simp] theorem Dev.freeRun_line (d : Dev) (r : SolRun) : (d.freeRun r).line = d.line := by
  refine foldl_keeps (·.line) (fun d c => ?_) r.chans d
  rfl

@[simp] theorem Dev.abandonCut_fire (d : Dev) (c : W16) (ref : W32) (lvl : Lvl) : (d.abandonCut c ref lvl).line.fire = d.line.fire := by
  unfold Dev.abandonCut
  split
  · rfl
  · split
    · exact d.abandonMove_fire c ref lvl
    · split
      · split
        · rfl
        · exact congrArg Line.fire ((Dev.close_line _ _ _).trans (d.freeRun_line _))
      · exact congrArg Line.fire (Dev.close_line _ _ _)

@[simp] theorem Dev.restAxis_line (d : Dev) (x : Fin 4) : (d.restAxis x).line = d.line := by
  unfold Dev.restAxis
  extract_lets a t e
  split
  · rfl
  · split <;> rfl

@[simp] theorem Dev.stopAux_line (d : Dev) : d.stopAux.line = d.line := by
  unfold Dev.stopAux
  extract_lets a e
  split
  · exact Dev.restAxis_line _ _
  · extract_lets f
    split
    · exact Dev.restAxis_line _ _
    · rfl

@[simp] theorem Dev.stopRuns_line (d : Dev) (c : W16) (ref : W32) (lvl : Lvl) : (d.stopRuns c ref lvl).line = d.line := by
  refine foldl_keeps (·.line) (fun d r => ?_) _ d
  dsimp only
  split
  · rfl
  · split
    · split
      · exact Dev.refuse_line _ _ _ _
      · rfl
    · split
      · split
        · exact (Dev.close_line _ _ _).trans (d.freeRun_line r)
        · rfl
      · rfl

@[simp] theorem Dev.refuseWaiting_line (d : Dev) (c : W16) (ref : W32) : (d.refuseWaiting c ref).line = d.line := by
  refine foldl_keeps (·.line) (fun d a => ?_) _ d
  split
  · rfl
  · refine (Dev.refuse_line _ _ _ _).trans ?_
    split
    · exact d.dropBand_line _ _
    · rfl

/-! ## Reactions -/

theorem Dev.pauseDevice_fire (d : Dev) (r : React) : (d.pauseDevice r).line.fire = d.line.fire := by
  unfold Dev.pauseDevice
  extract_lets moving waits paused
  have hwaits : waits.line.fire = d.line.fire := by
    unfold waits
    split
    · split
      · exact congrArg Line.fire (d.setWait_line _ _)
      · rfl
    · rfl
  have hpaused : paused.line.fire = d.line.fire := (Dev.pauseMove_fire _).trans ((Dev.stopBand_fire _ _ _ _).trans hwaits)
  split
  · exact (congrArg Line.fire (Dev.shadow_line _ _ _ _)).trans hpaused
  · exact hpaused

theorem Dev.pausePort_fire (d : Dev) (r : React) : (d.pausePort r).line.fire = d.line.fire := by
  unfold Dev.pausePort
  extract_lets moving stopped shadowed
  have hstopped : stopped.line.fire = d.line.fire := by
    unfold stopped
    split
    · exact d.stopBand_fire _ _ _
    · rfl
  have hshadowed : shadowed.line.fire = d.line.fire := (congrArg Line.fire (Dev.shadowPorts_line _ _)).trans hstopped
  split
  · exact (congrArg Line.fire (Dev.shadow_line _ _ _ _)).trans hshadowed
  · exact hshadowed

theorem Dev.stopPort_fire (d : Dev) (r : React) : (d.stopPort r).line.fire = d.line.fire := by
  unfold Dev.stopPort
  extract_lets p off stopped
  have hoff : off.line = d.line := Dev.shadowPorts_line _ _
  have hstopped : stopped.line.fire = d.line.fire := by
    unfold stopped
    split
    · exact (Dev.abandonBand_fire _ _ _ _).trans (congrArg Line.fire hoff)
    · exact congrArg Line.fire hoff
  split
  · split
    · exact (congrArg Line.fire (Dev.abandonTaste_line _ _ _ _)).trans hstopped
    · exact hstopped
  · exact hstopped

/-- The record that moves the media, abandoned under way or at rest. -/
theorem Dev.abandonMover_fire (d : Dev) (c : W16) (ref : W32) (lvl : Lvl) (e : Ending) (m : Move) :
    (if d.mot.travel != .rest then d.abandonMove c ref lvl
      else Dev.close { d with media := { d.media with move := none } } m.seq e).line.fire = d.line.fire := by
  split
  · exact d.abandonMove_fire c ref lvl
  · exact congrArg Line.fire (Dev.close_line _ _ _)

theorem Dev.stopDevice_fire (d : Dev) (r : React) : (d.stopDevice r).line.fire = d.line.fire := by
  unfold Dev.stopDevice
  extract_lets moving off lvl banded src moved cut tasted runs adopts refused
  have hoff : off.line.fire = d.line.fire := by
    unfold off
    split
    · exact congrArg Line.fire ((Dev.shadowPorts_line _ _).trans (d.onHead_line _ _))
    · rfl
  have hmoved : moved.line.fire = banded.line.fire := by
    unfold moved
    split
    · exact banded.abandonMover_fire _ _ _ _ _
    · rfl
  have hcut : cut.line.fire = moved.line.fire :=
    (congrArg Line.fire (Dev.stopAux_line _)).trans (moved.abandonCut_fire _ _ _)
  have hruns : runs.line = cut.line := (Dev.stopRuns_line _ _ _ _).trans (Dev.abandonTaste_line _ _ _ _)
  have hadopts : adopts.line = runs.line := by
    refine foldl_keeps (·.line) (fun d a => ?_) _ runs
    dsimp only
    split
    · exact Dev.close_line _ _ _
    · rfl
  have hfire : refused.line.fire = d.line.fire := by
    refine (congrArg Line.fire ((Dev.refuseWaiting_line _ _ _).trans (hadopts.trans hruns))).trans ?_
    exact hcut.trans (hmoved.trans ((off.abandonBand_fire _ _ _).trans hoff))
  split
  · exact (congrArg Line.fire (Dev.shadow_line _ _ _ _)).trans hfire
  · exact hfire

theorem Dev.yankWork_fire (d : Dev) (ref : W32) : (d.yankWork ref).line.fire = d.line.fire := by
  unfold Dev.yankWork
  extract_lets banded src moved
  have hbanded : banded.line.fire = d.line.fire := by
    unfold banded
    split
    · exact d.abandonBand_fire _ _ _
    · rfl
  have hmoved : moved.line.fire = banded.line.fire := by
    unfold moved
    split
    · exact banded.abandonMover_fire _ _ _ _ _
    · rfl
  exact (moved.abandonCut_fire _ _ _).trans (hmoved.trans hbanded)

theorem Dev.react_fire (d : Dev) (r : React) : (d.react r).line.fire = d.line.fire := by
  unfold Dev.react
  split
  · rfl
  · rfl
  · extract_lets paused
    have hpaused : paused.line.fire = d.line.fire := by
      unfold paused
      split
      · exact d.pausePort_fire r
      · exact d.pauseDevice_fire r
    split
    · exact (paused.yankWork_fire _).trans hpaused
    · exact hpaused
  · exact d.stopPort_fire r
  · exact d.stopDevice_fire r
  · rfl

theorem Dev.startWaiting_fire (d : Dev) : d.startWaiting.line.fire = d.line.fire := by
  refine foldl_keeps (·.line.fire) (fun d r => ?_) _ d
  dsimp only
  split
  · rfl
  · exact Dev.react_fire _ _

theorem Dev.respond_fire (d : Dev) (seq : W32) (r : Rise) (sev : Sev) (lvl : Lvl) (esc : Bool) :
    (d.respond seq r sev lvl esc).line.fire = d.line.fire := by
  unfold Dev.respond
  extract_lets own again flt link origin started later waits n noted
  split
  · rfl
  · have horigin : origin.line = d.line := by
      unfold origin
      split <;> rfl
    have hstarted : started.line.fire = d.line.fire := by
      unfold started
      split
      · exact origin.startWaiting_fire.trans (congrArg Line.fire horigin)
      · exact congrArg Line.fire horigin
    split
    · exact hstarted
    · exact (Dev.react_fire _ _).trans hstarted

theorem Dev.fault_fire {d : Dev} {r : Rise} {sev : Sev} {lvl : Lvl} {n : Nat} {esc : Bool} (h : sev ≠ .halt) :
    (d.fault r sev lvl n esc).line.fire = d.line.fire := by
  have hrecord : (d.record r sev lvl n esc).line = d.line := (d.record_recorded r sev lvl n esc).line
  rw [Dev.fault_eq h, Dev.respond_fire]
  split
  · rw [Dev.faultLow_line, hrecord]
  · rw [hrecord]

/-- What raising a happening can come to: nothing, a place among the early ones, a record without a reaction, or a fault at its
own severity or one step up (R539 to R549). -/
theorem Dev.raise_cases (d : Dev) (r : Rise) :
    d.raise r = d ∨
    (∃ e : Dev, (e = d ∨ e = d.faultLow) ∧ d.raise r = { e with sys := { e.sys with early := e.sys.early ++ [r] } }) ∨
    d.raise r = d.report r ∨
    (∃ (sev : Sev) (fl n sv : Nat) (e : Dev), (e = d ∨ ∃ key l, e = d.setHistory key l) ∧
      (d.raise r = ((e.tellRing r sev r.lvl fl).event r (4 * fl) n sv .drop).2 ∨ d.raise r = (e.tellRing r sev r.lvl fl).report r)) ∨
    ∃ (sev sev' : Sev) (key : Nat) (l : List Ts) (lvl : Lvl) (n : Nat) (esc : Bool), r.sev = some sev ∧ (sev' = sev ∨ sev' = sev.up r.lvl) ∧
      d.raise r = (d.setHistory key l).fault r sev' lvl n esc := by
  unfold Dev.raise
  split
  · exact .inl rfl
  · split
    · refine .inr (.inl ⟨_, ?_, rfl⟩)
      split
      · exact .inr rfl
      · exact .inl rfl
    · split
      · exact .inr (.inr (.inl rfl))
      · next sev hsev =>
        refine .inr (.inr (.inr ?_))
        generalize codeCount r.code = limits
        obtain ⟨most, win⟩ := limits
        dsimp -zeta only
        extract_lets counted key old told e n escalated sev' lvl
        split
        · exact .inl ⟨sev, 2, _, _, d, .inl rfl, .inl rfl⟩
        · split
          · exact .inl ⟨sev, 0, 0, 0, d, .inl rfl, .inr rfl⟩
          · split
            · exact .inl ⟨sev, 0, n, 0, e, .inr ⟨key, _, rfl⟩, .inl rfl⟩
            · refine .inr ⟨sev, sev', key, _, lvl, n, escalated, hsev, ?_, rfl⟩
              unfold sev'
              split
              · exact .inr rfl
              · exact .inl rfl

/-- Below STOP_DEVICE no escalation is a HALT (R541). -/
theorem Sev.up_ne_halt {sev : Sev} (lvl : Lvl) (h : sev ≠ .halt) (hd : sev ≠ .stopDevice) : sev.up lvl ≠ .halt := by
  cases sev with
  | note | derate | stopPort => simp only [Sev.up, ne_eq, reduceCtorEq, not_false_eq_true]
  | pause =>
    change (if lvl == .port then Sev.stopPort else .stopDevice) ≠ .halt
    split <;> simp only [ne_eq, reduceCtorEq, not_false_eq_true]
  | stopDevice => exact absurd rfl hd
  | halt => exact absurd rfl h

/-- What is raised below STOP_DEVICE leaves the line being fired to go on. -/
theorem Dev.raise_fire {d : Dev} {r : Rise} (h : r.sev ≠ some .halt) (hd : r.sev ≠ some .stopDevice) :
    (d.raise r).line.fire = d.line.fire := by
  rcases d.raise_cases r with heq | ⟨e, he, heq⟩ | heq | ⟨sev, fl, n, sv, e, he, heq⟩ | ⟨sev, sev', key, l, lvl, n, esc, hsev, hup, heq⟩
  · rw [heq]
  · rw [heq]
    rcases he with rfl | rfl
    · rfl
    · exact congrArg Line.fire d.faultLow_line
  · rw [heq, Dev.report_line]
  · have hline : e.line = d.line := by
      rcases he with rfl | ⟨key, l, rfl⟩
      · rfl
      · exact d.setHistory_line _ _
    rcases heq with heq | heq
    · rw [heq, Dev.event_line, Dev.tellRing_line, hline]
    · rw [heq, Dev.report_line, Dev.tellRing_line, hline]
  · have hhalt : sev ≠ .halt := fun e => h (hsev.trans (congrArg some e))
    have hstop : sev ≠ .stopDevice := fun e => hd (hsev.trans (congrArg some e))
    rw [heq, Dev.fault_fire, Dev.setHistory_line]
    rcases hup with rfl | rfl
    · exact hhalt
    · exact Sev.up_ne_halt r.lvl hhalt hstop

end Sys2Proof.Machine
end


section
/-! Commands that complete, second part: the shift and the strobes of a line (R250 to R264). -/

namespace Sys2Proof.Machine

/-! ## The line being fired, while its slot goes on -/

/-- The line being fired has reached a slot, with phases to assert. -/
def Dev.AtSlot (d : Dev) (n : Nat) : Prop := ∃ g : FireLine, d.line.fire = some g ∧ g.slot = n ∧ g.phases ≠ []

section AtSlot

variable {d e : Dev} {n : Nat}

theorem Dev.AtSlot.of_fire (h : d.AtSlot n) (he : e.line.fire = d.line.fire) : e.AtSlot n := by
  obtain ⟨g, hg, hslot, hphases⟩ := h
  exact ⟨g, he.trans hg, hslot, hphases⟩

theorem Dev.AtSlot.damage (h : d.AtSlot n) (ps : List (Fin 4)) (c : W16) (ref : W32) : (d.damage ps c ref).AtSlot n := by
  obtain ⟨g, hg, hslot, hphases⟩ := h
  unfold Dev.damage
  split
  · next f b hf hb =>
    cases hg.symm.trans hf
    split
    · exact ⟨g, hg, hslot, hphases⟩
    · exact ⟨_, rfl, hslot, hphases⟩
  · exact ⟨g, hg, hslot, hphases⟩

theorem Dev.AtSlot.each4 {f : Fin 4 → Dev → Dev} (h : d.AtSlot n) (ps : List (Fin 4)) (hf : ∀ p (e : Dev), e.AtSlot n → (f p e).AtSlot n) :
    (d.each4 ps f).AtSlot n := by
  unfold Dev.each4
  induction ps generalizing d with
  | nil => exact h
  | cons p ps ih => exact ih (hf p d h)

theorem Dev.AtSlot.kill (h : d.AtSlot n) (ps : List (Fin 4)) (c : W16) (sub : Nat) : (d.kill ps c sub).AtSlot n :=
  (h.damage ps c _).each4 ps fun _ _ he => he.of_fire rfl

/-- A mismatch of the bits read back stops its port at most (R253). -/
theorem Dev.AtSlot.readback (h : d.AtSlot n) (p : Fin 4) (rb : List Bool) : (d.readback p rb).AtSlot n := by
  have raised (e : Dev) (he : e.AtSlot n) (l : List Byte) : (e.raisePort cReadbackMismatch p l).AtSlot n :=
    he.of_fire (Dev.raise_fire (show codeSev cReadbackMismatch ≠ some .halt by decide) (show codeSev cReadbackMismatch ≠ some .stopDevice by decide))
  unfold Dev.readback
  dsimp only
  split
  · split
    · exact h
    · split
      · exact h
      · refine Dev.AtSlot.of_fire (raised _ ?_ _) (congrArg Line.fire (Dev.shadowPorts_line _ _))
        split
        · exact h.kill _ _ _
        · exact h
  · exact h

theorem Dev.AtSlot.shiftIn (h : d.AtSlot n) (rb : Quad (List Bool)) (ps : List (Fin 4)) (words : Quad (List Nat)) (s : Nat) :
    (d.shiftIn rb ps words s).AtSlot n := by
  refine h.each4 ps fun p e he => ?_
  dsimp only
  split
  · exact he.of_fire rfl
  · split
    · exact (he.readback p _).of_fire rfl
    · exact (he.readback p _).of_fire rfl

theorem Dev.AtSlot.trimNote (h : d.AtSlot n) (t : Trim) : (d.trimNote t).AtSlot n := by
  unfold Dev.trimNote
  split
  · exact h
  · split
    · exact h
    · exact h.of_fire (Dev.raise_fire (show some Sev.note ≠ some .halt by decide) (show some Sev.note ≠ some .stopDevice by decide))

end AtSlot

/-! ## The commands -/

/-- The next slot's plane transfers: the line goes on to the slot, with its phases to assert (R254, R255). -/
theorem slotTransfer_next {d : Dev} {rb : Quad (List Bool)} {f : FireLine} (hop : d.operating = true) (hfire : d.line.fire = some f)
    (hended : f.ended = false) (hdone : f.phases = []) (hleft : f.slot < f.durs.length) : (slotTransfer rb d).AtSlot (f.slot + 1) := by
  have next_phases (l : List (List (Nat × Nat))) : (if l.isEmpty then [[]] else l) ≠ [] := by
    cases l with
    | nil => exact nofun
    | cons a l => exact nofun
  have trims (ts : List Trim) (e : Dev) (he : e.AtSlot (f.slot + 1)) : (ts.foldl Dev.trimNote e).AtSlot (f.slot + 1) := by
    induction ts generalizing e with
    | nil => exact he
    | cons t ts ih => exact ih _ (he.trimNote t)
  unfold slotTransfer
  rw [hfire]
  dsimp only
  rw [if_neg (by rw [hop, hended, hdone, decide_eq_false (Nat.not_le.mpr hleft)]; exact Bool.false_ne_true)]
  have strobed : ∀ e : Dev, e.AtSlot (f.slot + 1) → ∀ l, (e.strobePhase l).AtSlot (f.slot + 1) := fun e he l => he.of_fire rfl
  split
  · exact (strobed _ (trims _ _ ⟨_, rfl, rfl, next_phases _⟩) _).shiftIn _ _ _ _
  · exact strobed _ (trims _ _ ⟨_, rfl, rfl, next_phases _⟩) _

theorem phaseBoundary_next {d : Dev} {f : FireLine} (hop : d.operating = true) (hfire : d.line.fire = some f) (hended : f.ended = false)
    (hnext : f.phase + 1 < f.phases.length) :
    phaseBoundary d = Dev.strobePhase { d with line := { d.line with fire := some { f with phase := f.phase + 1 } } }
      (f.phases.getD (f.phase + 1) []) := by
  have some_phase : f.phases.isEmpty = false := by
    cases hp : f.phases with
    | nil => rw [hp] at hnext; exact absurd hnext (Nat.not_lt_zero _)
    | cons a l => rfl
  unfold phaseBoundary
  rw [hfire]
  dsimp only
  rw [if_neg (by rw [hop, hended, some_phase]; exact Bool.false_ne_true), if_pos hnext]

/-- The first plane of a computed line shifts in, trimmed to the budget by the band's own plan (R250, R262). -/
theorem planeShift_own {d : Dev} {rb : Quad (List Bool)} {b : BandRt} {p : PendLine} (hop : d.operating = true)
    (hband : d.line.band = some b) (hphase : b.phase = .firing) (hshift : d.line.shiftDone = false) (hfire : d.line.fire = none)
    (hpend : d.line.pend = some p) (hcomplete : p.complete = true) (hown : d.line.following = none) :
    planeShift rb d =
      (Dev.each4 (Dev.shiftStarts { d with line := { d.line with shiftDone := true, pend := some (d.trimLine p b.plan) } })
        (fin4.filter fun k => !(fin4.filter fun k => (p.outs.get k).isSome).contains k)
        (fun k d => d.onHead k fun h => { h with shiftReg := none })).shiftIn rb (fin4.filter fun k => (p.outs.get k).isSome)
          (d.trimLine p b.plan).planes 0 := by
  have firing : (b.phase == .firing) = true := by rw [hphase]; rfl
  have ready : ¬ (!d.operating || d.line.shiftDone || (d.line.fire.map fun (f : FireLine) => decide (f.slot < f.durs.length)).getD false ||
      !(d.line.band.map fun b => b.phase == .firing).getD false) = true := by
    simp only [hop, hshift, hfire, hband, Option.map_some, Option.map_none, Option.getD_some, Option.getD_none, firing, Bool.not_true,
      Bool.or_self, Bool.false_eq_true, not_false_eq_true]
  refine (if_neg ready).trans ?_
  split
  · next hnone => cases hpend.symm.trans hnone
  · next pn hpn =>
    cases hpend.symm.trans hpn
    refine (if_neg (by rw [hcomplete]; exact Bool.false_ne_true)).trans ?_
    rw [hown, hband]

end Sys2Proof.Machine
end


section
/-! Commands that complete, third part: media, sensors and the coils (R289, R371 to R400, R414 to R440). -/

namespace Sys2Proof.Machine

/-! ## Media and sensors -/

section Media

variable {d : Dev}

theorem paperOutClear_eq (hop : d.operating = true) (hout : d.media.paperOut = true) (hcover : d.media.cover = false)
    (hclear : ∀ c : Fin 8, mRole d.curMedia c.val = 4 → ∃ t, (d.sense.get c).mediaTs = some t ∧ d.past t (500 * ms) = true) :
    paperOutClear d = Dev.endCond { d with media := { d.media with paperOut := false } } cPaperOut 0 := by
  have clear : (fin8.all fun c => decide (mRole d.curMedia c.val ≠ 4) ||
      (match (d.sense.get c).mediaTs with | some t => d.past t (500 * ms) | none => false)) = true := by
    refine List.all_eq_true.mpr fun c _ => ?_
    by_cases hrole : mRole d.curMedia c.val = 4
    · obtain ⟨t, ht, hpast⟩ := hclear c hrole
      rw [ht]
      exact (Bool.or_eq_true _ _).mpr (.inr hpast)
    · rw [decide_eq_true hrole, Bool.true_or]
  refine if_neg ?_
  rw [hop, hout, hcover]
  change ¬ (!_) = true
  rw [Bool.not_eq_true, Bool.not_eq_false']
  exact clear

/-- The range of a learning move ends: the move stands, marked as ranged (R379). -/
theorem learnRangeEnd_ranged {m : Move} {a : Adm} (hop : d.operating = true) (hlearn : d.learning = some (m, a)) (hnew : m.ranged = false)
    (hfar : rDist a.raw ≤ 4 * (d.samplePos (tens d.clk.now) - m.startPos)) :
    (learnRangeEnd d).media.move = some { m with ranged := true } := by
  unfold learnRangeEnd
  rw [hlearn]
  dsimp only
  rw [if_neg (by rw [hop, hnew, decide_eq_false (Int.not_lt.mpr hfar)]; exact Bool.false_ne_true)]
  refine foldl_keeps (·.media.move) (fun e c => ?_) fin8 { d with media := { d.media with move := some { m with ranged := true } } }
  have drawn (c : Prop) [Decidable c] (n : Nat) : (if c then e.drawFree else (n, e)).2.media.move = e.media.move :=
    ite_keeps (fun x : Nat × Dev => x.2.media.move) rfl rfl
  split
  · rfl
  · exact ite_keeps (fun e : Dev => e.media.move) (drawn _ _) (drawn _ _)

theorem yankCheck_first (hawake : d.awake = true) (hsec : d.pairSecondary = false) (hcpl : mCpl d.curMedia ≠ 0)
    (hyank : mYank d.curMedia ≠ 0) (hnext : d.past d.mot.yankTs (2 * ms) = false) (hfresh : d.mot.encHist = []) :
    yankCheck d = { d with mot := { d.mot with
      encHist := [d.mot.menc], cmdHist := (d.axes.a.pos :: d.mot.cmdHist).take 5, yankTs := d.clk.now } } := by
  refine (if_neg ?_).trans ?_
  · rw [hawake, hsec, decide_eq_false hcpl, decide_eq_false hyank]
    exact Bool.false_ne_true
  · simp only [hnext, Bool.false_eq_true, if_false, hfresh]
    split
    · next e c he hc => cases (show (none : Option Int) = some e from he)
    · rfl

theorem sensorRound_taken {set : Oct Adc} {e : Dev} (hawake : d.awake = true) (hsec : d.pairSecondary = false)
    (hdue : d.clk.now.toNat % 250 = 0) (hfree : d.roundOverlaps = false) (he : e = d.senseRound (d.roundAt d.clk.now) set) :
    sensorRound set d = e.sendTick 2 0 e.clk.now 0 0
      (pack12 (set.toList.map (·.toNat)) ++ pack12 (e.solx.adcb.map (·.toNat) ++ List.replicate (9 - e.solx.adcb.length) 0) ++
        sBytes 4 e.mot.menc ++ sBytes 4 e.mot.aenc) := by
  have due : ¬ (!d.awake || d.pairSecondary || decide (d.clk.now.toNat % 250 ≠ 0)) = true := by
    rw [hawake, hsec, decide_eq_false (not_not_intro hdue)]
    exact Bool.false_ne_true
  rw [he, sensorRound, if_neg due, hfree]
  simp only [Bool.not_false, if_true]

theorem coverOpen_raises {high : Bool} {ns : BitVec 16} (halive : d.alive = true) (hlong : filterNs (mCover d.curMedia) ≤ ns.toNat)
    (hlevel : high = !(bit (mCover d.curMedia) 0)) (hawake : d.awake = true) :
    coverOpen high ns d = Dev.coverRaise { d with media := { d.media with coverPin := high, cover := true } } := by
  have active : Dev.coverActive { d with media := { d.media with coverPin := high } } = true := by
    rw [hlevel]
    exact Bool.not_bne_self _
  have awake : Dev.awake { d with media := { d.media with coverPin := high, cover := true } } = true := hawake
  refine (if_neg ?_).trans ((if_neg ?_).trans (if_pos awake))
  · rw [halive, decide_eq_false (Nat.not_lt.mpr hlong)]
    exact Bool.false_ne_true
  · rw [active]
    exact Bool.false_ne_true

theorem coverClear_eq {high : Bool} (halive : d.alive = true) (hcover : d.media.cover = true) (hlevel : high = bit (mCover d.curMedia) 0) :
    coverClear high d =
      (Dev.unkill { d with media := { d.media with coverPin := high, cover := false } } fin4 cCoverOpen).endCond cCoverOpen 0 := by
  have passive : Dev.coverActive { d with media := { d.media with coverPin := high } } = false := by
    rw [hlevel]
    exact bne_self_eq_false _
  refine (if_neg ?_).trans (if_neg ?_)
  · rw [halive]
    exact Bool.false_ne_true
  · rw [passive, hcover]
    exact Bool.false_ne_true

/-- A cut that is late holds AX3 before it is raised (R405). -/
theorem cutterJam_raises {c : CutRt} (hop : d.operating = true) (hcut : d.media.cut = some c) (hlate : d.cutLate c = true) :
    ∃ (r : Rise) (e : Dev), r.code = cCutterJam ∧ r.sev = some .stopDevice ∧ e.axes.d.held = true ∧
      cutterJam d = (e.raise r).afterCut d := by
  unfold cutterJam
  rw [hcut]
  dsimp only
  rw [if_neg (by rw [hop, hlate]; exact Bool.false_ne_true)]
  exact ⟨_, _, rfl, rfl, rfl, rfl⟩

theorem axisOvercurrent_holds {x : Fin 4} {b : Bool} {mv : BitVec 16} (halive : d.alive = true)
    (hheld : (d.axes.get x).held = false) (hjust : d.justOn x b = false) :
    ∃ (r : Rise) (e : Dev), r.code = cAxisOvercurrent ∧ r.sub = x.val ∧ r.sev = some .stopDevice ∧ (e.axes.get x).held = true ∧
      axisOvercurrent x b mv d = e.raise r := by
  refine ⟨_, _, rfl, rfl, rfl, ?_, axisOvercurrent_eq halive hheld hjust rfl⟩
  have shadowed (e : Dev) : (e.shadow .gates none (some (500 * ms))).axes = e.axes := by
    refine foldl_keeps (·.axes) (fun d c => ?_) _ e
    rfl
  rw [shadowed, Dev.onAxis_get_self]

end Media

/-! ## Coils -/

section Coils

variable {d : Dev}

theorem Dev.release1_get_ne (d : Dev) {c k : Fin 8} (h : k ≠ c) : (d.release1 c).sol.get k = d.sol.get k := by
  rw [Dev.release1, Dev.gate, Dev.onSol_get_ne _ h, Dev.onSol_get_ne _ h]

theorem mateOf_ne (c : Fin 8) : c ≠ mateOf c := by
  revert c
  decide

theorem Dev.runOn_onRun (d : Dev) (c : Fin 8) (q : W32) {f : SolRun → SolRun} (hf : ∀ r, (f r).seq = r.seq) :
    (d.onRun q f).runOn c = (d.runOn c).map fun r => if r.seq = q then f r else r := by
  have same (x : W32) : ((fun r : SolRun => r.seq == x) ∘ fun r : SolRun => if r.seq = q then f r else r) = fun r => r.seq == x := by
    funext r
    simp only [Function.comp_apply, apply_ite SolRun.seq, hf, ite_self]
  unfold Dev.runOn Dev.onRun
  dsimp only
  cases (d.sol.get c).owner with
  | none => rfl
  | some x => simp only [List.find?_map, same]

/-- A channel that pulses is released with its run, its gate low (R416). -/
theorem Dev.releaseRun_released {c : Fin 8} (hch : ∀ r, d.runOn c = some r → r.ch = c) (hpulse : (d.sol.get c).phase ≠ .idle) :
    ((d.releaseRun c).sol.get c).phase = .released ∧ ((d.releaseRun c).sol.get c).gate = false := by
  have alone : ((d.release1 c).sol.get c).phase = .released ∧ ((d.release1 c).sol.get c).gate = false := by
    rw [Dev.release1_get_self, Sol.release_gate, Sol.setGate_gate, Sol.release, Sol.setGate_phase, if_neg (by rwa [beq_iff_eq])]
    exact ⟨rfl, rfl⟩
  have levels (e : Dev) : e.stageLevels.sol = e.sol := rfl
  rw [Dev.releaseRun, levels]
  split
  · next r hr =>
    have hmate : r.chans = [c] ∨ r.chans = [c, mateOf c] := by
      rw [SolRun.chans, hch r hr]
      split
      · exact .inr rfl
      · exact .inl rfl
    rcases hmate with h | h <;> rw [h]
    · exact alone
    · change (((d.release1 c).release1 (mateOf c)).sol.get c).phase = .released ∧ (((d.release1 c).release1 (mateOf c)).sol.get c).gate = false
      rw [Dev.release1_get_ne _ (mateOf_ne c)]
      exact alone
  · exact alone

/-- A coil that does not conduct is released before it is raised (R435). -/
theorem coilOpen_releases {c : Fin 8} {r : SolRun} (hr : d.runOn c = some r) (hch : r.ch = c) (hawake : d.awake = true)
    (hphase : (d.sol.get r.ch).phase = .peak) (hweak : (d.sol.get r.ch).strong = false)
    (hpast : d.past (d.sol.get r.ch).phaseTs (min (2 * ms) (r.peakMax * hundred)) = true) :
    ∃ (x : Rise) (e : Dev), x.code = cCoilOpen ∧ x.sub = r.ch.val ∧ x.sev = some .derate ∧ (e.sol.get r.ch).phase = .released ∧
      (e.sol.get r.ch).gate = false ∧ coilOpen c d = e.raise x := by
  have shadowed (e : Dev) : (e.shadowMate r.ch).sol = e.sol := by
    refine foldl_keeps (·.sol) (fun d c => ?_) _ e
    rfl
  have hrun (ref : W32) : ∀ x, (d.cutPulse r cCoilOpen ref).runOn r.ch = some x → x.ch = r.ch := by
    intro x hx
    rw [Dev.cutPulse] at hx
    split at hx
    · rw [hch, hr] at hx
      cases hx
      rfl
    · rw [Dev.runOn_onRun, hch, hr, Option.map_some, if_pos rfl] at hx
      · cases hx
        rfl
      · exact fun _ => rfl
  have hcut (ref : W32) : (d.cutPulse r cCoilOpen ref).sol = d.sol := by
    rw [Dev.cutPulse]
    split <;> rfl
  have hpeak (ref : W32) : ((d.cutPulse r cCoilOpen ref).sol.get r.ch).phase ≠ .idle := by
    rw [hcut, hphase]
    exact nofun
  obtain ⟨hreleased, hlow⟩ := Dev.releaseRun_released (hrun _) (hpeak (d.nextRef cCoilOpen r.ch.val))
  exact ⟨_, _, rfl, rfl, rfl, by rw [shadowed, hreleased], by rw [shadowed, hlow], coilOpen_eq hr hawake hphase hweak hpast rfl⟩

/-- With no record and no pulse the store's overvoltage takes the stage low and is raised (R437). -/
theorem boostOvervolt_idle {code : Adc} (halive : d.alive = true) (hfit : d.noSolenoids = false) (hruns : d.solx.runs = [])
    (hidle : ∀ c : Fin 8, (d.sol.get c).phase = .idle) :
    ∃ r : Rise, r.code = cBoostOvervolt ∧ r.sev = some .stopDevice ∧ boostOvervolt code d =
      (Dev.gatesLow { d with solx := { d.solx with dump := true, overvolt := true } }).raise r := by
  have none_pulses : (fin8.filter fun c => (d.sol.get c).pulsing) = [] := by
    refine List.filter_eq_nil_iff.mpr fun c _ => ?_
    rw [Sol.pulsing_iff, hidle c]
    exact nofun
  have h := boostOvervolt_eq (code := code) halive hfit rfl
  rw [none_pulses, hruns] at h
  exact ⟨_, rfl, rfl, h⟩

end Coils

end Sys2Proof.Machine
end


section
/-! Commands that complete, fourth part: the cellar, the clocks and their loss (R467 to R500, R506 to R518). -/

namespace Sys2Proof.Machine

/-! ## The cellar -/

section Cellar

variable {d : Dev}

theorem corkPulse_accepted {low high : Nat} (hlow : 250 ≤ low) (hhigh : 250 ≤ high) (hready : d.sys.ready = true) (hawake : d.awake = true)
    (hrole : d.factoryOnly = false) (hstore : d.cel.store = none) (hmeasure : d.measuring = false) (hheld : d.cel.pulseHeld = false) :
    corkPulse low high d = d.acceptPulse := by
  refine (if_neg ?_).trans (if_pos ?_)
  · rw [decide_eq_false (show ¬ low < 10 * us from Nat.not_lt.mpr hlow), decide_eq_false (show ¬ high < 10 * us from Nat.not_lt.mpr hhigh),
      hready, hawake, hrole]
    exact Bool.false_ne_true
  · rw [hstore, hmeasure, hheld]
    rfl

theorem Dev.storing_eq {st : Store} {p : Nat → Bool} (hop : d.operating = true) (hstore : d.cel.store = some st)
    (hgoes : st.suspended = none) (hp : p st.step = true) : d.storing p = some st := by
  rw [Dev.storing, hop, hstore]
  simp only [Bool.not_true, Bool.false_eq_true, if_false, Option.filter_some, hgoes, Option.isNone_none, hp, Bool.and_self, if_true]

theorem eraseDone_next {st : Store} (hop : d.operating = true) (hstore : d.cel.store = some st) (hgoes : st.suspended = none)
    (hstep : st.step = 1) (hmore : st.sector < 237) :
    eraseDone true d = { d with cel := {
      d.cel.erase (d.cel.sector st.bankB st.sector) with store := some { st with sector := st.sector + 1 } } } := by
  have storing : d.storing (· == 1) = some st := Dev.storing_eq hop hstore hgoes (by rw [hstep]; rfl)
  unfold eraseDone
  rw [storing]
  simp only [Bool.not_true, Bool.false_eq_true, if_false, if_pos (show st.sector + 1 < 238 by omega)]

theorem programDone_next {st : Store} {phys : Nat} (hop : d.operating = true) (hstore : d.cel.store = some st)
    (hgoes : st.suspended = none) (hstep : st.step = 2) (hmore : st.sector < 118) (hphys : phys = d.cel.sector st.bankB (1 + st.sector)) :
    programDone true d = { d with cel := {
      (d.cel.erase phys).program phys (st.sectorBytes (1 + st.sector)) with store := some { st with sector := st.sector + 1 } } } := by
  have storing : d.storing (fun n => n == 2 || n == 3) = some st := Dev.storing_eq hop hstore hgoes (by rw [hstep]; rfl)
  have target : st.target = (1 + st.sector, none) := by
    rw [Store.target, if_pos hstep, if_pos hmore]
  subst hphys
  unfold programDone
  rw [storing]
  simp only [target, Bool.not_true, Bool.false_eq_true, if_false, if_pos hstep, if_pos (show st.sector + 1 < 236 by omega),
    Nat.mod_eq_of_lt (show 1 + st.sector < 119 by omega)]

theorem storeComplete_eq {st : Store} {e : Dev} (hop : d.operating = true) (hstore : d.cel.store = some st) (hgoes : st.suspended = none)
    (hstep : st.step = 4) (hgood : d.cel.bankState st.bankB = none)
    (he : e = (Dev.ledAdd { d with cel := { d.cel with store := none, inUse := true, bankB := st.bankB } } 12 4 1)) :
    ∃ r : Rise, r.code = cVintageStored ∧ storeComplete d = e.raise r := by
  have storing : d.storing (· == 4) = some st := Dev.storing_eq hop hstore hgoes (by rw [hstep]; rfl)
  subst he
  unfold storeComplete
  rw [storing]
  dsimp only
  rw [hgood, if_neg (by exact Bool.false_ne_true)]
  exact ⟨_, rfl, rfl⟩

theorem storeStarved_eq {st : Store} {t : Ts} (hop : d.operating = true) (hstore : d.cel.store = some st) (hheld : st.suspended = some t)
    (hnew : st.starved = false) (hlong : d.past t (10000 * ms) = true) :
    ∃ r : Rise, r.code = cStoreStarved ∧
      storeStarved d = Dev.raise { d with cel := { d.cel with store := some { st with starved := true } } } r := by
  unfold storeStarved
  rw [hstore]
  dsimp only
  rw [hheld]
  dsimp only
  rw [if_neg (by rw [hop, hnew, hlong]; exact Bool.false_ne_true)]
  exact ⟨_, rfl, rfl⟩

theorem storeResume_eq {st : Store} {t : Ts} (hop : d.operating = true) (hstore : d.cel.store = some st) (hheld : st.suspended = some t)
    (hnew : st.starved = false) (hread : d.readUnderWay = false) (hclk : d.onFallback = false) (hprint : d.printing = false) :
    storeResume d = { d with cel := { d.cel with store := some { st with suspended := none } } } := by
  unfold storeResume
  rw [hstore]
  dsimp only
  rw [if_neg (by rw [hop, hheld, hread, hclk, hnew, hprint]; exact Bool.false_ne_true)]

theorem Dev.nextRead_one {q : W32} {i : Nat} (hreads : d.cel.reads = [(q, i)]) (hcome : d.readRecord i ≠ .wait) :
    d.nextRead = some (q, i) := by
  unfold Dev.nextRead
  rw [hreads, List.filter_cons_of_pos (by exact bne_iff_ne.mpr hcome)]
  rfl

theorem cellarReadDone_eq {q : W32} {i : Nat} {a : Adm} (hop : d.operating = true) (hrole : d.role = 0) (hreads : d.cel.reads = [(q, i)])
    (hcome : d.readRecord i ≠ .wait) (ha : d.adm q = some a) : cellarReadDone d = d.served a i (d.readRecord i) := by
  have secondary : d.pairSecondary = false := by
    rw [Dev.pairSecondary, hrole, show ((0 : Nat) == 2) = false from rfl, Bool.and_false, Bool.false_and]
  have primary : d.pairPrimary = false := by
    rw [Dev.pairPrimary, hrole, show ((0 : Nat) == 1) = false from rfl, Bool.and_false, Bool.false_and]
  unfold cellarReadDone
  rw [if_neg (by rw [hop, secondary]; exact Bool.false_ne_true), Dev.nextRead_one hreads hcome]
  dsimp only
  rw [ha]
  simp only [primary, Bool.not_false, if_true]

end Cellar

/-! ## Clocks -/

section Clocks

variable {d : Dev}

theorem rampStep_eq {x : Dom} {e : Dev} (hclk : d.clk.clkinOk = true) (hstep : (d.clk.dom x).step < 8)
    (he : e = { d with clk := d.clk.setDom x (d.clk.dom x).step1 }) (hback : e.domainsBack = false) : rampStep x d = e := by
  subst he
  exact (if_neg (by rw [hclk, decide_eq_false (Nat.not_le.mpr hstep)]; exact Bool.false_ne_true)).trans
    (if_neg (by rw [hback]; exact Bool.false_ne_true))

theorem clkForced_early {x : Dom} (hclk : d.clk.clkinOk = true) (hsrc : (d.clk.dom x).src = .pll) (hearly : d.alive = false) :
    clkForced x d = { d with clk := d.clk.setDom x ⟨.fallback, ratioFor (domLow x), 0, 0, 8, .fallback⟩ } := by
  have early : Dev.alive { d with clk := d.clk.setDom x ⟨.fallback, ratioFor (domLow x), 0, 0, 8, .fallback⟩ } = false := by
    cases x <;> exact hearly
  exact (if_neg (by rw [hclk, hsrc]; exact Bool.false_ne_true)).trans (if_pos (by rw [early]; rfl))

theorem Dev.faultLow_ready (d : Dev) : d.faultLow.sys.ready = d.sys.ready := by
  unfold Dev.faultLow
  split <;> rfl

theorem Dev.gatesLow_heads (d : Dev) : d.gatesLow.heads = d.heads := by
  have released : (d.each8 fin8 fun c d => d.release1 c).heads = d.heads := by
    refine foldl_keeps (·.heads) (fun d c => ?_) fin8 d
    rfl
  exact released

theorem Dev.shadow_heads (d : Dev) (why : Disturb) (sub : Option Nat) (n : Option Nat) : (d.shadow why sub n).heads = d.heads := by
  refine foldl_keeps (·.heads) (fun d c => ?_) _ d
  rfl

theorem Dev.kill_strobes (d : Dev) (code : W16) (sub : Nat) (p : Fin 4) : ((d.kill fin4 code sub).heads.get p).strobes = 0 := by
  rw [Dev.kill]
  dsimp only [Dev.each4, fin4, List.foldl_cons, List.foldl_nil, Dev.onHead]
  match p with | 0 | 1 | 2 | 3 => rfl

/-- Without CLKIN the device stops: no strobe, FAULT_N low, READY low (R513). -/
theorem clkinLost_stops (hclk : d.clk.clkinOk = true) (hgood : d.sys.phase ≠ .personalityError) :
    (clkinLost d).clk.clkinOk = false ∧ (clkinLost d).sys.ready = false ∧ (clkinLost d).sys.faultN = false ∧
    ∀ p, ((clkinLost d).heads.get p).strobes = 0 := by
  unfold clkinLost
  rw [if_neg (by rw [hclk]; exact Bool.false_ne_true), if_neg (by rwa [beq_iff_eq])]
  extract_lets key old counted body stopped
  have hheads : stopped.heads = (counted.kill fin4 cClkinLost 0).heads := (Dev.shadow_heads _ _ _ _).trans (Dev.gatesLow_heads _)
  clear_value stopped
  refine ⟨?_, ?_, Dev.faultLow_faultN _, fun p => ?_⟩
  · exact congrArg Clk.clkinOk (Dev.faultLow_clk _)
  · exact Dev.faultLow_ready _
  · rw [Dev.faultLow_heads]
    dsimp only
    rw [hheads]
    exact counted.kill_strobes _ _ p

theorem clkinRestored_resets (hlost : d.clk.clkinOk = false) (hphase : d.sys.phase = .noClock) (hstraps : d.pers.strapsDone = true) :
    (clkinRestored d).clk.clkinOk = true ∧ (clkinRestored d).sys.resetKind = .safety ∧ (clkinRestored d).sys.haltCode = cClkinLost ∧
    (clkinRestored d).clk.now = d.clk.now ∧ (clkinRestored d).clk.tickNo = d.clk.tickNo := by
  have h : clkinRestored d = (Dev.safetyReset { d with clk := { d.clk with clkinOk := true } } cClkinLost d.sys.haltBody true).haltFrame
      d.sys.haltFlags d.sys.haltPorts d.sys.haltTag := by
    refine (if_neg ?_).trans ((if_neg ?_).trans (if_pos hstraps))
    · rw [hlost]
      exact Bool.false_ne_true
    · exact fun hphase' => bne_iff_ne.mp hphase' hphase
  rw [h]
  exact ⟨rfl, rfl, rfl, rfl, rfl⟩

end Clocks

end Sys2Proof.Machine
end


section
/-! Every command from XSPI_READ on completes with its own effect, chapter by chapter. -/

namespace Sys2Proof.Machine

/-- Settles O60: each command by the lemma about its own effect, in the order of the chapters. -/
theorem commandsComplete : Obligations.CommandsComplete := by
  rintro s d rfl
  refine ⟨?read, fun hop => ⟨?handover, ?release, ?block, ?status, ?gauge⟩,
    fun hop => ⟨?tick, ?set, ?startSet, ?press, ?parity, ?shift, ?transfer, ?phase, ?guard, ?hard, ?low⟩, ?stuck,
    fun p halive hon => ⟨?temp, ?high, ?opens, ?shuts⟩, fun t hop ht => ⟨?setup, ?dot, ?released⟩, ?_⟩
  case read =>
    intro ca words hread ha hmine hdec hdrive hin
    exact ⟨_, exec_of_effect (xspiRead_served hread ha hmine hdec hdrive hin), rfl, rfl, rfl⟩
  case handover =>
    intro n hown hoff hgood
    exact ⟨_, exec_of_effect rfl, sectionHandover_inForce n.isLt hop hown hoff hgood⟩
  case release =>
    intro n hband hmover hon hasked hfree htable
    exact exec_of_effect (sectionRelease_eq hop hband hmover hon hasked hfree htable)
  case block =>
    intro n rest hhanded hown
    exact exec_of_effect (blockCheck_eq hop hhanded hown)
  case status =>
    intro hready
    exact exec_of_effect (statusWrite_eq hop hready)
  case gauge =>
    intro hready hdue
    exact ⟨_, exec_of_effect rfl, gaugeWrite_due hop hready hdue⟩
  case tick =>
    intro fine ts f e p hmark hat hready hnow hf he hdue hframes hkill hp hcomplete hshift hlate
    exact exec_of_effect ((lineTick_due hmark hat hop hready hnow hf).trans
      (Dev.tickAt_begins he hdue hframes hkill hp hcomplete hshift hlate))
  case set =>
    intro set hsec hdone
    exact exec_of_effect (if_neg (by rw [hop, hsec, hdone]; exact Bool.false_ne_true))
  case startSet =>
    intro set t hsec hstart hat
    exact exec_of_effect (startSet_eq hop hsec hstart hat)
  case press =>
    intro p hp hopen
    exact ⟨_, exec_of_effect (pressDone_agree hop hp hopen), rfl, rfl⟩
  case parity =>
    intro k hin
    exact exec_of_effect (if_neg (by rw [hop, hin]; exact Bool.false_ne_true))
  case shift =>
    rintro rb b p q ports hband hphase hshift hfire hpend hcomplete hown rfl rfl
    exact exec_of_effect (planeShift_own hop hband hphase hshift hfire hpend hcomplete hown)
  case transfer =>
    intro rb f hfire hended hphases hleft
    obtain ⟨g, hg, hslot, hnext⟩ := slotTransfer_next (rb := rb) hop hfire hended hphases hleft
    exact ⟨_, g, exec_of_effect rfl, hg, hslot, hnext⟩
  case phase =>
    intro f hfire hended hnext
    exact exec_of_effect (phaseBoundary_next hop hfire hended hnext)
  case guard =>
    intro p g
    exact exec_of_effect (strobeGuard_eq g hop)
  case hard =>
    intro p c e htrip hrest he hcool
    exact exec_of_effect ((hardRecheck_eq hop htrip hrest he).trans (if_pos hcool))
  case low =>
    intro p c n e hlow heval he habove hmore
    exact exec_of_effect ((vhRecheck_eq hop hlow heval he).trans ((if_neg (Nat.not_lt.mpr habove)).trans (if_pos hmore)))
  case stuck =>
    intro p g hpers
    exact ⟨s.dev.stuckRise p g, _, rfl, rfl, rfl, exec_of_effect (strobeStuck_eq g hpers)⟩
  case temp =>
    intro hnew
    exact exec_of_effect (overtempHard_eq halive hon hnew)
  case high =>
    intro c hnew
    exact exec_of_effect (vhHigh_eq halive hon c hnew)
  case opens =>
    intro high ns e hns hopen hawake he
    refine exec_of_effect ((headOpen_eq halive hon hns hopen he).trans (if_pos ?_))
    subst he
    exact hawake
  case shuts =>
    intro high hpin hshut
    exact exec_of_effect (headOpenClear_eq halive hpin hshut)
  case setup =>
    intro sums u hstage hyield hpast hu hgood
    refine exec_of_effect ((tasteSetup_good hop ht hstage hpast hu hgood).trans (if_neg ?_))
    rw [hyield]
    exact Bool.false_ne_true
  case dot =>
    intro sums x a hstage hblock hpast hx ha hmore hyield
    have stop : ¬ x.1.tasteStop x.2.seq ≤ x.2.dot + 1 := by
      rw [Dev.tasteStop, ha]
      exact Nat.not_le.mpr hmore
    have h : effect (.tasteDotDone sums none) s.dev = _ :=
      tasteDotDone_eq hop ht hstage (by rw [decide_eq_false hblock]; exact hpast) (decide_eq_false hblock) nofun hx
    exact exec_of_effect (h.trans ((if_neg stop).trans (if_neg (by rw [hyield]; exact Bool.false_ne_true))))
  case released =>
    intro hstage hended hpast
    refine exec_of_effect ((tasteReleaseDone_eq hop ht hstage hpast).trans ?_)
    rw [hended, if_pos rfl]
  refine ⟨fun hop => ⟨?resume, ?counts, ?stalled, ?step, ?rests, ?axis, ?winding, ?current, ?brake, ?jam, ?paper, ?range, ?cutter⟩,
    fun hawake hsec => ⟨?yank, ?round⟩, fun halive => ⟨?cover, ?covered⟩, ?_⟩
  case resume =>
    intro b hb hphase hmay
    exact exec_of_effect (bandResume_eq hb hphase hmay)
  case counts =>
    intro up hsec
    exact ⟨exec_of_effect (if_neg (by rw [hop, hsec]; exact Bool.false_ne_true)),
      exec_of_effect (if_neg (by rw [hop, hsec]; exact Bool.false_ne_true))⟩
  case stalled =>
    intro b hsource hdue hb hphase hmoves hlate
    refine exec_of_effect (tickStalled_eq hop hsource hdue ?_ hlate)
    rw [Dev.awaited, hb]
    exact if_pos (by rw [hphase, hmoves]; rfl)
  case step =>
    intro g rest e hready hsegs hband hcome he
    have wired : ∀ t, (s.dev.axes.get 0).readyTs = some t → atOrAfter s.dev.clk.now t = true := fun t ht => by
      cases hready.symm.trans ht
    refine exec_of_effect ((motorStep_ax0 (x := 0) hop wired rfl hsegs).trans ((if_neg ?_).trans ?_))
    · rw [hband, Option.map_none, Option.getD_none, Bool.and_false, Bool.false_or, Dev.stepDue, Axis.nextU, hcome]
      exact Bool.false_ne_true
    · rw [he]
      rfl
  case rests =>
    intro htravel hstopping hsegs hper hdue
    have h := mediaRest_rests hop htravel hsegs hper hdue (.inl hstopping) rfl
    split at h
    · exact ⟨_, exec_of_effect h, .inr rfl⟩
    · exact ⟨_, exec_of_effect h, .inl rfl⟩
  case axis =>
    intro x a ha hon hstill hsegs htime hpast hheld
    exact exec_of_effect (axisRelease_eq hop ha hon hstill hsegs htime hpast hheld)
  case winding =>
    intro x b len e hon hheld hdc hbrake hoff hlen he
    have h : effect (.chopperPhaseEnd (.winding x b) len) s.dev = _ := windingPhase_chops hop hon hheld (fun _ => hdc) (fun _ => hbrake)
    rw [hoff, if_neg Bool.false_ne_true] at h
    refine exec_of_effect (h.trans ((offPhaseEnd_eq hlen he).trans ?_))
    rw [beq_false_of_ne hdc]
    rfl
  case current =>
    intro x b mv hheld hjust
    obtain ⟨r, e, hcode, hsub, hsev, hheld, h⟩ := axisOvercurrent_holds (mv := mv) (Dev.alive_of_operating hop) hheld hjust
    exact ⟨r, e, hcode, hsub, hsev, hheld, exec_of_effect h⟩
  case brake =>
    intro hbrake hpast
    exact exec_of_effect (dcBrakeEnd_eq hop hbrake hpast)
  case jam =>
    intro hdc htarget hbrake hpast hon hcounts hfew
    refine ⟨_, rfl, rfl, rfl, exec_of_effect ((dcJamCheck_eq hop hdc htarget hbrake hpast rfl).trans (if_neg ?_))⟩
    rw [hon, hcounts, List.filter_nil, List.length_nil, decide_eq_false (by omega)]
    exact Bool.false_ne_true
  case paper =>
    intro hout hcover hclear
    exact exec_of_effect (paperOutClear_eq hop hout hcover hclear)
  case range =>
    intro m a hlearn hnew hfar
    exact ⟨_, exec_of_effect rfl, learnRangeEnd_ranged hop hlearn hnew hfar⟩
  case cutter =>
    intro c hcut hlate
    obtain ⟨r, e, hcode, hsev, hheld, h⟩ := cutterJam_raises hop hcut hlate
    exact ⟨r, e, hcode, hsev, hheld, exec_of_effect h⟩
  case yank =>
    intro hcpl hyank hnext hfresh
    exact ⟨_, exec_of_effect (yankCheck_first hawake hsec hcpl hyank hnext hfresh), rfl, rfl, rfl⟩
  case round =>
    intro set e hdue hfree he
    exact exec_of_effect (sensorRound_taken hawake hsec hdue hfree he)
  case cover =>
    rintro high ns e hlong hlevel hawake rfl
    exact ⟨_, rfl, rfl, rfl, exec_of_effect (coverOpen_raises halive hlong hlevel hawake)⟩
  case covered =>
    intro high hcover hlevel
    exact exec_of_effect (coverClear_eq halive hcover hlevel)
  refine ⟨fun seq r hr => ⟨?start, ?late⟩, fun c r hop hr => ⟨?peak, ?hold, ?off, ?weak⟩, ?samples, ?share, ?models, ?short, ?idle, ?boost,
    fun hframe => ⟨?breaks, fun hopen l f hf => ⟨?frame, ?poll, ?times⟩⟩,
    fun hstream => ⟨fun l f hf hlead hwhole => ⟨?unit, ?pollUnit⟩, ?stray, ?xon, ?xoff⟩,
    ?reply, ?_⟩
  case start =>
    intro hawake hmay hcut hbegun
    exact exec_of_effect (pulseStart_eq hr hawake hmay hcut (.inl hbegun))
  case late =>
    intro t hop hbegun hdeadline hdue hpast
    exact exec_of_effect (solenoidDeadline_eq hr hop hbegun hdeadline hdue (.inl hpast))
  case peak =>
    intro hphase hlong hhold hnext
    exact exec_of_effect ((peakEnd_eq hr hop hphase (.inl hlong) rfl).trans (if_neg hnext))
  case hold =>
    intro hphase hlong
    exact exec_of_effect (holdEnd_eq hr hop hphase hlong)
  case off =>
    intro hcut hoff hstop hmore
    have count : r.done + b2n (!r.void) = r.done + (if r.void then 0 else 1) := by cases r.void <;> rfl
    have still : ∀ k ∈ r.chans, (s.dev.sol.get k).phase = .released ∧ s.dev.past (s.dev.sol.get k).relTs (100 * us) = true ∧
        ∀ t, (s.dev.sol.get k).belowTs = some t → s.dev.past t (100 * us) = true := fun k hk => by
      obtain ⟨hphase, hpast, hbelow⟩ := hoff k hk
      exact ⟨hphase, hpast, fun t ht => nomatch hbelow.symm.trans ht⟩
    refine exec_of_effect ((((channelOff_eq hr hop hcut still rfl rfl).2 hstop).trans (if_neg (Nat.not_le.mpr hmore))).trans ?_)
    rw [count]
  case weak =>
    intro hawake hch hphase hweak hpast
    obtain ⟨x, e, hcode, hsub, hsev, hreleased, hlow, h⟩ := coilOpen_releases hr hch hawake hphase hweak hpast
    exact ⟨x, e, hcode, hsub, hsev, hreleased, hlow, exec_of_effect h⟩
  case samples =>
    intro sc vb hawake hsec
    exact exec_of_effect (if_neg (by rw [hawake, hsec]; exact Bool.false_ne_true))
  case share =>
    intro c x hawake hx hphase hreg hseated hfirst hpast
    have begun : x.winTs = x.regTs := by
      rw [Sol.winTs, hfirst, Nat.zero_mul]
      exact BitVec.add_zero _
    refine exec_of_effect ((onShare_eq hawake hx hphase hreg hseated (by rw [begun, hpast]) rfl rfl rfl).trans (Dev.onSol_congr ?_))
    rw [hfirst]
    rfl
  case models =>
    intro hop hquiet
    refine ⟨_, exec_of_effect (coilModels_quiet hop hquiet), fun c => ?_, Dev.foldl_onSol_frame _ _ _⟩
    rw [Dev.foldl_onSol_get _ c fin8 s.dev (by decide), if_pos (mem_fin8 c)]
    exact ⟨rfl, rfl⟩
  case short =>
    intro c reading halive hfit hin hgate hnone
    have single : s.dev.pulsedPaired c = false := by
      rw [Dev.pulsedPaired, hnone]
    exact exec_of_effect (shortSupply_eq halive hfit hin (.inl hgate) (by rw [single, if_neg Bool.false_ne_true]))
  case idle =>
    intro rd hawake hfit hnow howner hhs hpast hin hothers hbelow
    have last : s.dev.idleTested 7 = true := by
      rw [Dev.idleTested, howner]
      exact Bool.and_eq_true_iff.mpr ⟨Bool.and_eq_true_iff.mpr ⟨by rw [show pairOf 7 = 3 from rfl, hhs]; rfl, hpast⟩,
        by rw [show pairOf 7 = 3 from rfl, hin]; rfl⟩
    exact exec_of_effect ((idleTest_last hawake hfit hnow last (fun c hc => Dev.idleTested_owned (hothers c hc)) rfl).trans
      (if_neg (Nat.not_le.mpr hbelow)))
  case boost =>
    intro code halive hfit hruns hidle
    obtain ⟨r, hcode, hsev, h⟩ := boostOvervolt_idle (code := code) halive hfit hruns hidle
    exact ⟨r, hcode, hsev, exec_of_effect h⟩
  case breaks =>
    intro n hlong
    exact exec_of_effect (uartBreak_opens hframe hlong)
  case frame =>
    intro n hlen hn hwhole
    subst hf
    exact exec_of_effect (uartWriteFrame_eq hframe hopen hlen hn (.inr hwhole))
  case poll =>
    intro hlen hwhole
    subst hf
    exact exec_of_effect (uartPoll_eq hframe hopen hlen hwhole)
  case times =>
    intro n hmode hawake hsync htwo hpid hown hlate
    subst hf
    have fixed : s.dev.uartMode ≠ 3 := by rw [hmode]; decide
    have rate : s.dev.uart.rate = (if s.dev.framing && !s.dev.rateFails (s.dev.received l) && 2 ≤ (s.dev.received l).chars.length
        then s.dev.takeRate (s.dev.received l) else s.dev).uart.rate := by
      rw [Dev.takeRate_of_fixed _ _ fixed, ite_self]
    have frames : s.dev.streaming = false := by
      rw [Dev.streaming, hmode, show ((2 : Nat) == 1) = false from rfl, Bool.and_false, Bool.false_and]
    have chars : (s.dev.received l).chars ≠ [] := fun h => by
      rw [h] at htwo
      exact absurd htwo (by decide)
    have h : effect (.uartTimeout l n) s.dev = _ :=
      uartTimeout_identified rate chars hlate frames hframe hopen rfl hsync (Dev.rateFails_of_fixed _ _ fixed) htwo hawake
    refine exec_of_effect (h.trans ((if_neg ?_).trans ?_))
    · rw [hpid, hown]
      exact Bool.false_ne_true
    · exact congrArg (fun e : Dev => (e.noisy (s.dev.received l)).discard (s.dev.received l) (frameOf (s.dev.received l)) cUartTimeout)
        (Dev.takeRate_of_fixed _ _ fixed)
  case unit =>
    intro n hlen hn
    subst hf
    exact exec_of_effect (streamWriteUnit_eq hstream hlead hlen hn (.inr hwhole))
  case pollUnit =>
    intro hlen
    subst hf
    exact exec_of_effect (streamPollUnit_eq hstream hlead hlen (.inr hwhole))
  case stray =>
    intro u c hc hlead hxon hxoff
    refine exec_of_effect (?_ : streamStray (rxChar s.dev.uartFormat u) s.dev = _)
    rw [hc]
    refine if_neg ?_
    rw [hstream, decide_eq_false hlead, decide_eq_false hxon, decide_eq_false hxoff]
    exact Bool.false_ne_true
  case xon => exact exec_of_effect (if_pos hstream)
  case xoff => exact exec_of_effect (if_pos hstream)
  case reply =>
    intro b rest hhears hmode hheld hsleep hunits hxoff hreplies
    exact exec_of_effect (uartReply_eq hhears hmode hheld hsleep hunits hxoff hreplies)
  refine ⟨?cork, fun st hop hstore hgoes => ⟨?erases, ?programs, ?completes⟩, fun st t hop hstore hheld hnew => ⟨?starves, ?resumes⟩, ?reads,
    fun hclk => ⟨?unlock, ?relock, ?ramp, ?forced, ?lost, ?asks, ?wakes⟩, ?restored, ?doze, ?dormant,
    fun hop => ⟨?watch, ?holds, ?port, ?ends, ?delay⟩, ?frames, fun hlive => ⟨?align, ?sync, ?resend, ?down⟩,
    fun halive => ⟨?up, ?position, ?skew, ?takes⟩, ?unjoined, ?alone, ?write, ?bank, ?edge⟩
  case cork =>
    intro low high hlow hhigh hready hawake hrole hstore hmeasure hheld
    exact exec_of_effect (corkPulse_accepted hlow hhigh hready hawake hrole hstore hmeasure hheld)
  case erases =>
    intro hstep hmore
    exact exec_of_effect (eraseDone_next hop hstore hgoes hstep hmore)
  case programs =>
    intro phys hstep hmore hphys
    exact exec_of_effect (programDone_next hop hstore hgoes hstep hmore hphys)
  case completes =>
    intro e hstep hgood he
    obtain ⟨r, hcode, h⟩ := storeComplete_eq hop hstore hgoes hstep hgood he
    exact ⟨r, hcode, exec_of_effect h⟩
  case starves =>
    intro hlong
    obtain ⟨r, hcode, h⟩ := storeStarved_eq hop hstore hheld hnew hlong
    exact ⟨r, hcode, exec_of_effect h⟩
  case resumes =>
    intro hread hfallback hprint
    exact exec_of_effect (storeResume_eq hop hstore hheld hnew hread hfallback hprint)
  case reads =>
    intro q i a hop hrole hreads hcome ha
    exact exec_of_effect (cellarReadDone_eq hop hrole hreads hcome ha)
  case unlock =>
    intro hon hlocked hearly
    exact exec_of_effect (pllUnlock_early hclk hon hlocked (.inr hearly))
  case relock =>
    intro t hon hlocked hts hlate hpast halive
    exact ⟨_, rfl, rfl, exec_of_effect (pllTimeout_eq hclk hon hlocked hts hlate hpast halive)⟩
  case ramp =>
    intro x e hstep he hback
    exact exec_of_effect (rampStep_eq hclk hstep he hback)
  case forced =>
    intro x hsrc hearly
    exact exec_of_effect (clkForced_early hclk hsrc hearly)
  case lost =>
    intro hgood
    exact ⟨_, exec_of_effect rfl, clkinLost_stops hclk hgood⟩
  case asks =>
    intro hign hpin
    exact exec_of_effect (if_neg (by rw [hclk, hign, hpin]; exact Bool.false_ne_true))
  case wakes =>
    intro hawake
    exact exec_of_effect (wake_awake hclk hawake)
  case restored =>
    intro hlost hphase hstraps
    exact ⟨_, exec_of_effect rfl, clkinRestored_resets hlost hphase hstraps⟩
  case doze =>
    intro hmay hsec
    obtain ⟨-, dozes, -⟩ := powerStatesAnswer s
    obtain ⟨e, h, hsleep, -, -, -, -, -, haxes, hwin, hrings, -⟩ := dozes hmay hsec
    exact ⟨e, h, hsleep, fun x => (haxes x).1, hwin, hrings⟩
  case dormant =>
    intro hdoze halive hpin hpast hmode hcause
    obtain ⟨-, -, dormant, -⟩ := powerStatesAnswer s
    obtain ⟨e, h, hsleep, hready, hpll, -, -, -, hwin, -⟩ := dormant hdoze halive hpin hpast hmode hcause
    exact ⟨e, h, hsleep, hready, hpll, hwin⟩
  case watch =>
    intro q step hready hcounts
    obtain ⟨watch, -⟩ := holdsAndEndsAnswer s hop
    exact ⟨_, rfl, rfl, watch q step hready hcounts⟩
  case holds =>
    obtain ⟨-, holds, -⟩ := holdsAndEndsAnswer s hop
    exact holds
  case port =>
    obtain ⟨-, -, port, -⟩ := holdsAndEndsAnswer s hop
    exact port
  case ends =>
    obtain ⟨-, -, -, ends, -⟩ := holdsAndEndsAnswer s hop
    exact ends
  case delay =>
    obtain ⟨-, -, -, -, delay⟩ := holdsAndEndsAnswer s hop
    exact delay
  case frames =>
    rintro f c ty act e hc hlive haligned hty hsrc hintact hcheck hdst hseen he
    obtain ⟨heffect, hpor, htck⟩ := linkFrame_effect hc s.dev
    have good : true = (f.intact && frameGood f.bytes) := by rw [hintact, hcheck]; rfl
    have h := Dev.linkIn_other (act := act) hlive haligned hty good (decide_eq_true hdst).symm hseen.symm rfl hsrc
    rw [if_neg (by exact Bool.false_ne_true)] at h
    subst he
    exact exec_of_effect (heffect.trans h) hpor htck
  case align =>
    intro h
    exact exec_of_effect (linkAligned_eq hlive h)
  case sync =>
    intro h
    exact exec_of_effect (syncSend_eq hlive h)
  case resend =>
    intro f hf htries hlate hpast
    exact ⟨_, exec_of_effect (linkResend_eq hlive hf htries hlate hpast List.not_mem_nil rfl), rfl, rfl⟩
  case down =>
    intro e haligned halive hmode hformed he
    exact ⟨_, rfl, rfl, exec_of_effect (linkDown_lost hlive haligned halive hmode hformed he)⟩
  case up =>
    intro haligned hdown hjoined hpast hready hmaster
    refine exec_of_effect (linkUp_eq halive haligned hdown hjoined hpast (fun _ => hready) fun _ _ => ?_)
    obtain ⟨n, hn, hpos⟩ := hmaster
    exact ⟨n, hn, hpos, by rw [hready n hn]; decide⟩
  case position =>
    intro p hmode haligned hdown hpos hp hlost
    exact ⟨_, _, rfl, rfl, rfl, exec_of_effect (positionLost_eq halive hmode haligned hdown (.inl ⟨hpos, hp⟩) hlost rfl)⟩
  case skew =>
    intro hrun
    exact ⟨_, _, rfl, rfl, rfl, exec_of_effect (tickSkew_eq halive (.inl ⟨hrun, rfl, rfl⟩) rfl)⟩
  case takes =>
    intro hsec hgone
    obtain ⟨-, ends⟩ := secondaryAnswers s hsec
    obtain ⟨-, takes⟩ := ends halive
    obtain ⟨e, h, hformed, hlow, htakes, -⟩ := takes hgone
    exact ⟨e, h, hformed, hlow, htakes⟩
  case unjoined =>
    intro hmode hpos hvalid hpers hclk hjoined
    exact ⟨_, _, rfl, rfl, rfl, exec_of_effect (notJoined_eq hmode hpos hvalid hpers hclk hjoined rfl)⟩
  case alone =>
    intro hrole hstraps hclk hready hpartner halone hdissolved hpers
    exact ⟨_, _, rfl, rfl, rfl, exec_of_effect (noPartner_eq hrole hstraps hclk hready hpartner halone hdissolved hpers rfl)⟩
  case write =>
    intro w hop hsec hw
    obtain ⟨write, -⟩ := secondaryAnswers s hsec
    exact write w hop hw
  case bank =>
    intro above
    exact exec_of_effect rfl
  case edge =>
    intro tms tdi cells
    exact exec_tckEdge _ _ _ _ _ _

end Sys2Proof.Machine
end


section
/-! What the end of a command does where no work is under way, reactions and records apart: it leaves the window and the host
port (R19, R143, R384, R536 to R549). -/

namespace Sys2Proof.Machine

/-- The device stays without work, and its window and the counters of its host port stand. -/
structure Kept (d e : Dev) : Prop where
  idle : Idle e
  win : e.win = d.win
  port : e.port = d.port

namespace Kept

variable {d e f : Dev}

theorem refl (h : Idle d) : Kept d d := ⟨h, rfl, rfl⟩

theorem trans (h : Kept d e) (k : Kept e f) : Kept d f := ⟨k.idle, k.win.trans h.win, k.port.trans h.port⟩

theorem ite {c : Prop} [Decidable c] (he : Kept d e) (hf : Kept d f) : Kept d (if c then e else f) := by
  split
  · exact he
  · exact hf

theorem foldl {α : Type} {g : Dev → α → Dev} (hg : ∀ e x, Idle e → Kept e (g e x)) (l : List α) (h : Idle d) : Kept d (l.foldl g d) := by
  induction l generalizing d with
  | nil => exact refl h
  | cons x l ih => exact (hg d x h).trans (ih (hg d x h).idle)

end Kept

namespace Idle

variable {d : Dev}

/-! ## Records, shadows and kill inputs -/

theorem make_kept (h : Idle d) (k : Keep) (ty flags mask : Nat) (tag : W32) (code : W16) (ts tick : Ts) (body : List Byte) :
    Kept d (d.make k ty flags mask tag code ts tick body).2 := by
  have queued (g : Rings) (bytes : List Byte) : (g.admitRec k bytes).admitted = g.admitted := by
    unfold Rings.admitRec
    split
    · rfl
    · split <;> rfl
  unfold Dev.make
  split
  · exact ⟨{ h with }, rfl, rfl⟩
  · exact ⟨{ h with admitted := (queued _ _).trans h.admitted }, rfl, rfl⟩

theorem event_kept (h : Idle d) (r : Rise) (flags count sev : Nat) (k : Keep) : Kept d (d.event r flags count sev k).2 :=
  h.make_kept _ _ _ _ _ _ _ _ _

theorem report_kept (h : Idle d) (r : Rise) : Kept d (d.report r) := h.event_kept _ _ _ _ _

theorem note_kept (h : Idle d) (c : W16) (l : List Byte) : Kept d (d.note c l) := h.report_kept _

theorem sendFrame_kept (h : Idle d) (ty dst low : Nat) (p : List Byte) : Kept d (d.sendFrame ty dst low p) := by
  unfold Dev.sendFrame
  split
  · exact .refl h
  · exact ⟨{ h with }, rfl, rfl⟩

theorem tellRing_kept (h : Idle d) (r : Rise) (sev : Sev) (lvl : Lvl) (flags : Nat) : Kept d (d.tellRing r sev lvl flags) :=
  .ite (h.sendFrame_kept _ _ _ _) (.refl h)

theorem faultLow_kept (h : Idle d) : Kept d d.faultLow :=
  .ite ⟨{ h with }, rfl, rfl⟩ (.refl h)

/-- A change of the reactions, the shadows and the counts alone. -/
theorem flt_kept (h : Idle d) (f : Flt) : Kept d { d with flt := f } := ⟨{ h with }, rfl, rfl⟩

theorem shadow_kept (h : Idle d) (why : Disturb) (sub n : Option Nat) : Kept d (d.shadow why sub n) := by
  refine .foldl (fun e c he => ?_) _ h
  exact he.flt_kept _

theorem shadowPorts_kept (h : Idle d) (ps : List (Fin 4)) : Kept d (d.shadowPorts ps) :=
  .foldl (fun _ _ he => he.shadow_kept _ _ _) ps h

theorem onHead_kept (h : Idle d) (p : Fin 4) (f : Head → Head) : Kept d (d.onHead p f) := ⟨{ h with }, rfl, rfl⟩

/-- Without a band a kill input damages no line. -/
theorem kill_kept (h : Idle d) (ps : List (Fin 4)) (c : W16) (sub : Nat) : Kept d (d.kill ps c sub) := by
  have undamaged (ref : W32) : d.damage ps c ref = d := by
    unfold Dev.damage
    rw [h.band]
    split
    · next hb => cases hb
    · rfl
  rw [Dev.kill, undamaged]
  exact .foldl (fun _ p he => he.onHead_kept p _) ps h

theorem endCond_kept (h : Idle d) (c : W16) (sub : Nat) : Kept d (d.endCond c sub) := ⟨{ h with }, rfl, rfl⟩

/-! ## Reactions -/

theorem stopBand (h : Idle d) (c : W16) (ref : W32) (back : Bool) : d.stopBand c ref back = d := by
  unfold Dev.stopBand
  rw [h.band]

theorem abandonBand (h : Idle d) (c : W16) (ref : W32) (lvl : Lvl) : d.abandonBand c ref lvl = d := by
  simp only [Dev.abandonBand, h.stopBand, h.band, Option.map_none, Option.getD_none, Option.isSome_none, Bool.false_and,
    Bool.false_eq_true, if_false]

theorem abandonCut (h : Idle d) (c : W16) (ref : W32) (lvl : Lvl) : d.abandonCut c ref lvl = d := by
  unfold Dev.abandonCut
  rw [h.cut]

theorem abandonTaste (h : Idle d) (c : W16) (ref : W32) (lvl : Lvl) : d.abandonTaste c ref lvl = d := by
  unfold Dev.abandonTaste
  rw [h.taste]

theorem bandFeeds (h : Idle d) (p : Nat) : d.bandFeeds p = false := by
  unfold Dev.bandFeeds
  rw [h.band]

theorem pauseMove (h : Idle d) : d.pauseMove = d := by
  unfold Dev.pauseMove
  rw [h.mover]
  rfl

theorem stopRuns (h : Idle d) (c : W16) (ref : W32) (lvl : Lvl) : d.stopRuns c ref lvl = d := by
  unfold Dev.stopRuns
  rw [h.pulses]
  rfl

theorem refuseWaiting (h : Idle d) (c : W16) (ref : W32) : d.refuseWaiting c ref = d := by
  unfold Dev.refuseWaiting
  rw [h.admitted]
  rfl

theorem yankWork (h : Idle d) (ref : W32) : d.yankWork ref = d := by
  simp only [Dev.yankWork, h.band, h.move, Option.map_none, Option.getD_none, Bool.false_eq_true, if_false, h.abandonCut]

theorem restAxis_kept (h : Idle d) : Kept d (d.restAxis 3) := by
  unfold Dev.restAxis
  extract_lets a t e
  exact .ite (.refl h) (.ite ⟨{ h with }, rfl, rfl⟩ ⟨{ h with }, rfl, rfl⟩)

theorem stopAux_kept (h : Idle d) : Kept d d.stopAux := by
  unfold Dev.stopAux
  extract_lets a mot e
  have he : Kept d e := ⟨{ h with }, rfl, rfl⟩
  split
  · exact he.trans he.idle.restAxis_kept
  · extract_lets f
    have hf : Kept d f := ⟨{ h with }, rfl, rfl⟩
    exact .ite (hf.trans hf.idle.restAxis_kept) hf

theorem pauseDevice_kept (h : Idle d) (r : React) : Kept d (d.pauseDevice r) := by
  simp only [Dev.pauseDevice, h.mover, h.stopBand, h.pauseMove]
  exact .ite (h.shadow_kept _ _ _) (.refl h)

theorem pausePort_kept (h : Idle d) (r : React) : Kept d (d.pausePort r) := by
  simp only [Dev.pausePort, h.bandFeeds, Bool.false_eq_true, if_false]
  have hoff := h.shadowPorts_kept [fin4Of r.port]
  exact .ite (hoff.trans (hoff.idle.shadow_kept _ _ _)) hoff

theorem stopPort_kept (h : Idle d) (r : React) : Kept d (d.stopPort r) := by
  have hhead := h.onHead_kept (fin4Of r.port) fun h => { h with stopped := true }
  have hoff := hhead.trans (hhead.idle.shadowPorts_kept [fin4Of r.port])
  simp only [Dev.stopPort, hoff.idle.bandFeeds, Bool.false_eq_true, if_false, hoff.idle.taste]
  exact hoff

theorem stopDevice_kept (h : Idle d) (r : React) : Kept d (d.stopDevice r) := by
  unfold Dev.stopDevice
  extract_lets moving off lvl banded src moved cut tasted runs adopts refused
  have hoff : Kept d off := by
    have hhead := h.onHead_kept (fin4Of r.sub) fun h => { h with stopped := true }
    exact .ite (hhead.trans (hhead.idle.shadowPorts_kept _)) (.refl h)
  have hbanded : banded = off := hoff.idle.abandonBand _ _ _
  have hmoved : moved = off := by
    unfold moved
    rw [hbanded, hoff.idle.move]
  have hcut : Kept d cut := by
    unfold cut
    rw [hmoved, hoff.idle.abandonCut]
    exact hoff.trans hoff.idle.stopAux_kept
  have htasted : tasted = cut := hcut.idle.abandonTaste _ _ _
  have hruns : runs = cut := by
    unfold runs
    rw [htasted, hcut.idle.stopRuns]
  have hadopts : adopts = cut := by
    unfold adopts
    rw [hruns, hcut.idle.admitted]
    rfl
  have hrefused : refused = cut := by
    unfold refused
    rw [hadopts, hcut.idle.refuseWaiting]
  rw [hrefused]
  exact .ite (hcut.trans (hcut.idle.shadow_kept _ _ _)) hcut

theorem react_kept (h : Idle d) (r : React) : Kept d (d.react r) := by
  unfold Dev.react
  split
  · exact .refl h
  · exact .refl h
  · extract_lets paused
    have hpaused : Kept d paused := .ite (h.pausePort_kept r) (h.pauseDevice_kept r)
    rw [hpaused.idle.yankWork]
    exact .ite hpaused hpaused
  · exact h.stopPort_kept r
  · exact h.stopDevice_kept r
  · exact .refl h

theorem startWaiting_kept (h : Idle d) : Kept d d.startWaiting := by
  refine .foldl (fun e r he => ?_) _ h
  extract_lets later now flt f
  have hf : Kept e f := he.flt_kept _
  exact .ite hf (hf.trans (hf.idle.react_kept r))

theorem endReact_kept (h : Idle d) (r : React) : Kept d (d.endReact r) :=
  .ite ⟨{ h with }, rfl, rfl⟩ (h.flt_kept _)

theorem settleReacts_kept (h : Idle d) (n : Nat) : Kept d (d.settleReacts n) := by
  induction n generalizing d with
  | zero => exact .refl h
  | succ n ih =>
    unfold Dev.settleReacts
    extract_lets e
    have he : Kept d e := .ite (.refl h) h.startWaiting_kept
    have ends (r : React) : Kept d ((e.endReact r).settleReacts n) := he.trans ((he.idle.endReact_kept r).trans (ih (he.idle.endReact_kept r).idle))
    split
    · exact ends _
    · split
      · exact he
      · next r hr =>
        extract_lets f
        have hf : Kept d f := he.trans (he.idle.flt_kept _)
        have starts (x : React) : Kept d ((f.react x).settleReacts n) := hf.trans ((hf.idle.react_kept x).trans (ih (hf.idle.react_kept x).idle))
        have fends : Kept d ((f.endReact r).settleReacts n) := hf.trans ((hf.idle.endReact_kept r).trans (ih (hf.idle.endReact_kept r).idle))
        exact .ite (starts _) (.ite fends (starts _))

/-! ## What is raised -/

theorem record_kept (h : Idle d) (r : Rise) (sev : Sev) (lvl : Lvl) (n : Nat) (esc : Bool) : Kept d (d.record r sev lvl n esc) := by
  unfold Dev.record
  extract_lets job made told
  have hmade : Kept d made.2 := h.make_kept _ _ _ _ _ _ _ _ _
  have htally : Kept d (made.2.tally r.code) := hmade.trans ⟨{ hmade.idle with }, rfl, rfl⟩
  have htold : Kept d told := htally.trans (htally.idle.tellRing_kept _ _ _ _)
  exact htold.trans ⟨{ htold.idle with }, rfl, rfl⟩

theorem respond_kept (h : Idle d) (seq : W32) (r : Rise) (sev : Sev) (lvl : Lvl) (esc : Bool) : Kept d (d.respond seq r sev lvl esc) := by
  unfold Dev.respond
  extract_lets own again prolonged link origin started later waits n flt noted
  have horigin : Kept d origin := .ite ⟨{ h with }, rfl, rfl⟩ (.refl h)
  have hstarted : Kept d started := .ite (horigin.trans horigin.idle.startWaiting_kept) horigin
  have hnoted : Kept d noted := hstarted.trans (hstarted.idle.flt_kept _)
  exact .ite (h.flt_kept _) (.ite hnoted (hnoted.trans (hnoted.idle.react_kept n)))

theorem fault_kept (h : Idle d) {r : Rise} {sev : Sev} {lvl : Lvl} {n : Nat} {esc : Bool} (hsev : sev ≠ .halt) :
    Kept d (d.fault r sev lvl n esc) := by
  have hrecord := h.record_kept r sev lvl n esc
  have hlow : Kept d (if 2 ≤ sev.code then (d.record r sev lvl n esc).faultLow else d.record r sev lvl n esc) :=
    .ite (hrecord.trans hrecord.idle.faultLow_kept) hrecord
  rw [Dev.fault_eq hsev]
  exact hlow.trans (hlow.idle.respond_kept _ _ _ _ _)

/-- What is raised below STOP_DEVICE leaves the device without work, its window and its host port. -/
theorem raise_kept (h : Idle d) {r : Rise} (hhalt : r.sev ≠ some .halt) (hstop : r.sev ≠ some .stopDevice) : Kept d (d.raise r) := by
  rcases d.raise_cases r with heq | ⟨e, he, heq⟩ | heq | ⟨sev, fl, n, sv, e, he, heq⟩ | ⟨sev, sev', key, l, lvl, n, esc, hsev, hup, heq⟩
  · rw [heq]
    exact .refl h
  · have hkept : Kept d e := by
      rcases he with rfl | rfl
      · exact .refl h
      · exact h.faultLow_kept
    rw [heq]
    exact hkept.trans ⟨{ hkept.idle with }, rfl, rfl⟩
  · rw [heq]
    exact h.report_kept r
  · have hkept : Kept d e := by
      rcases he with rfl | ⟨key, l, rfl⟩
      · exact .refl h
      · exact h.flt_kept _
    have htold := hkept.trans (hkept.idle.tellRing_kept r sev r.lvl fl)
    rcases heq with heq | heq
    · rw [heq]
      exact htold.trans (htold.idle.event_kept _ _ _ _ _)
    · rw [heq]
      exact htold.trans (htold.idle.report_kept _)
  · have counted : Kept d (d.setHistory key l) := h.flt_kept _
    have below : sev' ≠ .halt := by
      rcases hup with rfl | rfl
      · exact fun e => hhalt (hsev.trans (congrArg some e))
      · exact Sev.up_ne_halt r.lvl (fun e => hhalt (hsev.trans (congrArg some e))) fun e => hstop (hsev.trans (congrArg some e))
    rw [heq]
    exact counted.trans (counted.idle.fault_kept below)

/-! ## The end of a command -/

theorem settleCover_kept (h : Idle d) : Kept d d.settleCover := by
  have raised (e : Dev) (he : Idle e) : Kept e e.coverRaise := by
    unfold Dev.coverRaise
    extract_lets ps tick off
    have hkill := he.kill_kept ps cCoverOpen 0
    have hoff : Kept e off := hkill.trans (hkill.idle.shadowPorts_kept ps)
    exact hoff.trans (hoff.idle.raise_kept (show some Sev.pause ≠ some .halt by decide) (show some Sev.pause ≠ some .stopDevice by decide))
  have hopen : Kept d { d with media := { d.media with cover := true } } := ⟨{ h with }, rfl, rfl⟩
  exact .ite (.refl h) (hopen.trans (raised _ hopen.idle))

theorem settleStatus_kept (h : Idle d) : Kept d d.settleStatus := by
  have full (on : Bool) : Kept d { d with rings := { d.rings with fullHeld := on } } := ⟨{ h with }, rfl, rfl⟩
  refine .ite ?_ (.ite ?_ (.refl h))
  · exact (full true).trans ((full true).idle.raise_kept (show some Sev.pause ≠ some .halt by decide) (show some Sev.pause ≠ some .stopDevice by decide))
  · exact (full false).trans ((full false).idle.endCond_kept _ _)

/-- With no work under way every command ends with the window and the host port as its own part left them. -/
theorem finish_stands (h : Idle d) : d.finish.win = d.win ∧ d.finish.port = d.port := by
  have settled (e : Dev) (he : Kept d e) : e.settleBridges.faultRelease.win = d.win ∧ e.settleBridges.faultRelease.port = d.port :=
    ⟨(windowStands_settled e).win.trans he.win, (windowStands_settled e).port.trans he.port⟩
  unfold Dev.finish
  extract_lets link linked begun weighed stored planned driven told
  have hlinked : Kept d linked := .ite (.refl h) ⟨{ h with }, rfl, rfl⟩
  split
  · exact settled linked hlinked
  · have hcover := hlinked.trans hlinked.idle.settleCover_kept
    have hbegun : Kept d begun := by
      unfold begun
      rw [hcover.idle.lateStarts, hcover.idle.closeQuiet]
      have hstatus := hcover.trans hcover.idle.settleStatus_kept
      have hreacts := hstatus.trans (hstatus.idle.settleReacts_kept 64)
      rw [hreacts.idle.resumeCut]
      exact hreacts
    have hweighed : weighed = begun := by
      unfold weighed
      rw [hbegun.idle.weighRuns, hbegun.idle.beginAll, hbegun.idle.weigh, hbegun.idle.weighTaste]
    have hstored : Kept d stored := by
      have hreacts := hbegun.trans (hbegun.idle.settleReacts_kept 64)
      unfold stored
      rw [hweighed, hreacts.idle.heldPulse, hreacts.idle.suspendStore]
      exact hreacts
    have hplanned : planned = stored := if_neg (by rw [hstored.idle.plan, Bool.false_and]; exact Bool.false_ne_true)
    have hdriven : driven = stored := by
      unfold driven
      rw [hplanned, hstored.idle.withdrawDue, hstored.idle.takeDrive, ite_self]
    have htold : told = stored := by
      unfold told
      rw [hdriven, hstored.idle.compareEchoes, hstored.idle.sendChanges, hstored.idle.tellMembers, hstored.idle.settleResend]
    rw [htold]
    exact settled _ (hstored.trans hstored.idle.settleStatus_kept)

end Idle

end Sys2Proof.Machine
end


section
/-! What a host write leaves in the window (R93, R99, R101, R102). -/

namespace Sys2Proof.Machine

/-! ## The bytes of a burst -/

/-- The last byte that a list of cells carries for an offset. -/
def lastCell (cells : List (Nat × Byte)) (a : Nat) : Option Byte := (cells.reverse.find? fun c => c.1 == a).map (·.2)

theorem lastCell_cons (c : Nat × Byte) (cells : List (Nat × Byte)) (a : Nat) :
    lastCell (c :: cells) a = (lastCell cells a).or (if c.1 = a then some c.2 else none) := by
  rw [lastCell, List.reverse_cons, List.find?_append, List.find?_singleton, lastCell]
  cases cells.reverse.find? fun x => x.1 == a with
  | some x => rfl
  | none => simp only [Option.none_or, Option.map_none, beq_iff_eq]; split <;> rfl

/-- Cells kept or not by their offset alone: what an offset last carries is kept or lost with it. -/
theorem lastCell_filter (keep : Nat → Bool) (cells : List (Nat × Byte)) (a : Nat) :
    lastCell (cells.filter fun c => keep c.1) a = if keep a then lastCell cells a else none := by
  induction cells with
  | nil => simp only [List.filter_nil, lastCell, List.reverse_nil, List.find?_nil, Option.map_none, ite_self]
  | cons c cells ih =>
    rw [lastCell_cons, List.filter_cons]
    by_cases hc : c.1 = a
    · subst hc
      cases hk : keep c.1 with
      | true => simp only [if_true, lastCell_cons, ih, hk]
      | false => rw [if_neg Bool.false_ne_true, ih, hk]; rfl
    · rw [if_neg hc, Option.or_none, ← ih]
      split
      · rw [lastCell_cons, if_neg hc, Option.or_none]
      · rfl

/-- Cells written one after another: every byte of the window reads the last cell for it, or as before. -/
theorem Dev.ram_foldl_poke (cells : List (Nat × Byte)) (d : Dev) (hin : ∀ c ∈ cells, c.1 < 0x400000) (hm : Memory.wf d.win.mem = true)
    (a : Nat) : (cells.foldl (fun d c => d.poke c.1 [c.2]) d).ram a = (lastCell cells a).getD (d.ram a) := by
  induction cells generalizing d with
  | nil => rfl
  | cons c cells ih =>
    rw [List.foldl_cons, ih _ (fun x hx => hin x (List.mem_cons_of_mem _ hx)) (d.poke_wf _ _ hm), lastCell_cons]
    cases lastCell cells a with
    | some v => rfl
    | none =>
      by_cases hc : c.1 = a
      · subst hc
        rw [if_pos rfl, d.ram_poke_self _ _ (hin c List.mem_cons_self) hm]
        rfl
      · rw [if_neg hc, d.ram_poke_ne _ _ _ (Ne.symm hc) hm]
        rfl

/-! ## One host write -/

section HostWrite

variable {d : Dev}

/-- A structure handed over changes the lists that wait for it, not a byte of the window. -/
theorem Dev.handedOver_mem (d : Dev) (a : Nat) : (d.handedOver a).win.mem = d.win.mem ∧ (d.handedOver a).win.epoch = d.win.epoch ∧
    (d.handedOver a).port = d.port := by
  unfold Dev.handedOver
  split
  · dsimp only
    split <;> exact ⟨rfl, rfl, rfl⟩
  · split
    · dsimp only
      split <;> exact ⟨rfl, rfl, rfl⟩
    · exact ⟨rfl, rfl, rfl⟩

theorem Idle.handedOver (h : Idle d) (a : Nat) : Idle (d.handedOver a) := by
  unfold Dev.handedOver
  split
  · dsimp only
    split
    · exact h
    · exact { h with }
  · split
    · dsimp only
      split
      · exact { h with }
      · exact h
    · exact h

theorem Idle.foldl {α : Type} {g : Dev → α → Dev} (hg : ∀ e x, Idle e → Idle (g e x)) (l : List α) (h : Idle d) : Idle (l.foldl g d) := by
  induction l generalizing d with
  | nil => exact h
  | cons x l ih => exact ih (hg d x h)

theorem Idle.poke (h : Idle d) (a : Nat) (vs : List Byte) : Idle (d.poke a vs) := by
  unfold Dev.poke
  split
  · exact { h with }
  · exact h

/-- The cells of a host write that the window takes. -/
def Dev.taken (d : Dev) (cells : List (Nat × Byte)) : List (Nat × Byte) := cells.filter fun c => !hostIgnored c.1 && !d.discards c.1

/-- The window after a host write, before the structures handed over are noted. -/
def Dev.written (d : Dev) (cells : List (Nat × Byte)) : Dev :=
  (d.taken cells).foldl (fun d c => d.poke c.1 [c.2]) { d with port.writeCount := d.port.writeCount + 1 }

theorem Dev.written_port (d : Dev) (cells : List (Nat × Byte)) : (d.written cells).port = { d.port with writeCount := d.port.writeCount + 1 } :=
  foldl_keeps (fun e : Dev => e.port) (fun e (c : Nat × Byte) => e.poke_port c.1 [c.2]) _ { d with port.writeCount := d.port.writeCount + 1 }

theorem Dev.ram_written (cells : List (Nat × Byte)) (hm : Memory.wf d.win.mem = true) (a : Nat) :
    (d.written cells).ram a = if hostIgnored a || d.discards a then d.ram a else (lastCell cells a).getD (d.ram a) := by
  have inside : ∀ c ∈ d.taken cells, c.1 < 0x400000 := fun c hc => by
    have := (List.mem_filter.mp hc).2
    simp only [hostIgnored, Bool.and_eq_true, Bool.not_eq_true', Bool.or_eq_false_iff, decide_eq_false_iff_not] at this
    exact Nat.not_le.mp this.1.2
  have kept : lastCell (d.taken cells) a = if !hostIgnored a && !d.discards a then lastCell cells a else none :=
    lastCell_filter (fun a => !hostIgnored a && !d.discards a) cells a
  refine (Dev.ram_foldl_poke _ { d with port.writeCount := d.port.writeCount + 1 } inside hm a).trans ?_
  rw [kept, show Dev.ram { d with port.writeCount := d.port.writeCount + 1 } a = d.ram a from rfl]
  cases hostIgnored a <;> cases d.discards a <;> rfl

/-- One host write: the window as its cells leave it, counted once, and the device without work as before. -/
theorem hostWrite_lands (h : Idle d) (cells : List (Nat × Byte)) (path : Nat) :
    Idle (d.hostWrite path cells) ∧ (∀ a, (d.hostWrite path cells).ram a = (d.written cells).ram a) ∧
    (d.hostWrite path cells).port.writeCount = d.port.writeCount + 1 := by
  have hwritten : Idle (d.written cells) := Idle.foldl (fun e c he => he.poke _ _) _ { h with }
  unfold Dev.hostWrite
  extract_lets lost kept port counted win handed
  have hhanded : Idle handed := hwritten.foldl (fun e a he => he.handedOver a) _
  have hmem : handed.win.mem = (d.written cells).win.mem := foldl_keeps (·.win.mem) (fun e a => (e.handedOver_mem a).1) _ (d.written cells)
  have hepoch : handed.win.epoch = (d.written cells).win.epoch :=
    foldl_keeps (·.win.epoch) (fun e a => (e.handedOver_mem a).2.1) _ (d.written cells)
  have hport : handed.port = (d.written cells).port := foldl_keeps (·.port) (fun e a => (e.handedOver_mem a).2.2) _ (d.written cells)
  have hram (a : Nat) : handed.ram a = (d.written cells).ram a := by rw [Dev.ram, hmem, hepoch, Dev.ram]
  have hcount : handed.port.writeCount = d.port.writeCount + 1 := by rw [hport, Dev.written_port]
  clear_value lost
  cases lost with
  | nil => exact ⟨hhanded, hram, hcount⟩
  | cons c rest =>
    have hnoted := Idle.note_kept (d := { handed with port := { handed.port with violation := handed.port.violation + 1 } }) { hhanded with }
      cOwnerViolation (winDetail c.1 path 0 0 0 0 0 0)
    refine ⟨hnoted.idle, fun a => ?_, ?_⟩
    · rw [Dev.ram, hnoted.win]
      exact hram a
    · rw [hnoted.port]
      exact hcount

end HostWrite

/-- Settles O21: the burst's cells land, and with no work under way the command's end leaves the window to them. -/
theorem hostWriteLands : Obligations.HostWriteLands := by
  intro s ca data hquiet hm hready hdrive hformed ha hmine hdec hread
  have alone : s.dev.pairSecondary = false := by rw [Dev.pairSecondary, hformed, Bool.false_and, Bool.false_and]
  have bus : s.dev.busWrite (burstCells ca data) = s.dev.hostWrite 0 (burstCells ca data) :=
    if_neg (by rw [alone]; exact Bool.false_ne_true)
  have written : effect (.xspiWrite ca true data) s.dev = hostWrites ca true data s.dev := if_neg (by rw [hread]; exact Bool.false_ne_true)
  obtain ⟨hidle, hram, hcount⟩ := hostWrite_lands hquiet.still.toIdle (burstCells ca data) 0
  have landed : Idle (effect (.xspiWrite ca true data) s.dev) ∧
      (∀ a, (effect (.xspiWrite ca true data) s.dev).ram a = (s.dev.written (burstCells ca data)).ram a) ∧
      (effect (.xspiWrite ca true data) s.dev).port.writeCount = s.dev.port.writeCount + 1 := by
    rw [written, hostWrites_bus ha hmine hdec hready (.inl hdrive) bus.symm]
    split
    · exact ⟨{ hidle with }, hram, hcount⟩
    · exact ⟨hidle, hram, hcount⟩
  obtain ⟨hidle, hram, hcount⟩ := landed
  obtain ⟨hwin, hport⟩ := hidle.finish_stands
  refine ⟨_, exec_of_effect rfl, ?_, fun a ha => ?_⟩
  · dsimp only
    rw [hport, hcount]
  · dsimp only
    rw [Dev.ram, hwin]
    exact (hram a).trans (s.dev.ram_written _ hm a)

end Sys2Proof.Machine
end
